-- ==== Sys2Proof/Word.lean ====
section
/-!
DEFINITION. The word of the call store and the numbers that name the parts of the exchange (spec/00, Terms;
spec/01, R1 and R2).
-/

namespace Sys2Proof

/-- A call-store word (spec/00, Conventions: "A word is 16 bits"). -/
abbrev Word := BitVec 16

/-- A subscriber line, 0 to 511. -/
abbrev Line := Fin 512

/-- A circuit, 0 to 55: cords 0 to 23, outgoing junctions 24 to 47, incoming junctions 48 to 55 (R22). -/
abbrev Circuit := Fin 56

/-- A cord, 0 to 23. -/
abbrev Cord := Fin 24

/-- An outgoing junction as a call's called party, 0 to 23. -/
abbrev Junction := Fin 24

/-- A group of outgoing junctions, 0 to 2. -/
abbrev JunctionGroup := Fin 3

/-- An order slot, 0 to 31 (R142). -/
abbrev OrderSlot := Fin 32

/-- A line group, 0 to 15 (R1). -/
abbrev LineGroup := Fin 16

/-- A line's position in its group, 0 to 31 (R1). -/
abbrev Position := Fin 32

/-- The number of an A-link in its group, which is the number of the B-switch it goes to, 0 to 9 (R1). -/
abbrev LinkNo := Fin 10

/-- An outlet of a B-switch, 0 to 7 (R1). -/
abbrev Outlet := Fin 8

/-- A terminal, 0 to 79 (R2). -/
abbrev Terminal := Fin 80

/-- A time band, 0 to 3. -/
abbrev TimeBand := Fin 4

/-- A distance band, 0 to 7. -/
abbrev DistBand := Fin 8

/-- A supervision point, 0 to 111 (R38). -/
abbrev Point := Fin 112

end Sys2Proof
end

