-- ==== Sys2Proof/Syntax.lean ====
section
/-!
DEFINITION. The commands of the 716: one constructor for each row of spec/opcode_table.json, in the table's order.

The table gives its rows no bits and no fields. A processor cycle carries what the bus carries (address, data) and
the memory's answer (MPERR, and whether it comes in a later event); an order carries its slot and the argument words it examines (spec/08, section 8.5); a
Matrix Port response carries the word received on MXI; an event of a circuit names the circuit.
-/

namespace Sys2Proof

/-- A crosspoint, by its coordinates (R1). -/
inductive Crosspoint where
  /-- A(g, p, k): joins position p of line group g to link (g, k). -/
  | a (g : LineGroup) (p : Position) (k : LinkNo)
  /-- B(k, g, j): joins inlet g of B-switch k to outlet j. -/
  | b (k : LinkNo) (g : LineGroup) (j : Outlet)
deriving DecidableEq, Repr

/-- What MXI delivers beside the DONE/FAIL and MAKE/BREAK bits of a response word: its bits 13 to 0 (stage and
crosspoint field), the parity bit received and the level of the stop bit (R174). -/
structure Response where
  body : BitVec 14
  parity : Bool
  stop : Bool
deriving DecidableEq, Repr

/-- How memory answers a passed read: `mperr` is MPERR with the data (R166), and `later` says that memory completes the access in a
later event, until which the granted cycle owns the port; else it completes in the event of the command (R162; assumption log 7). -/
structure ReadAnswer where
  mperr : Bool
  later : Bool
deriving DecidableEq, Repr

/-- The value of a passed write, and how memory answers it: `later` as for a read (R162; assumption log 7). -/
structure WriteData where
  value : Word
  later : Bool
deriving DecidableEq, Repr

/-- The commands. -/
inductive Instr where
  /-- MASTER_RESET (R167): MRST is asserted, or power comes up. -/
  | masterReset
  /-- MRST_RELEASE (R156): MRST is released; `loadcfg` is the level of the LOADCFG strap. -/
  | mrstRelease (loadcfg : Bool)
  /-- PARTIAL_RESET (R167): PRST is asserted. -/
  | partialReset
  /-- CYCLE_WHILE_MRST (R162): a processor cycle, `write` telling PWR from PRD. -/
  | cycleWhileMrst (write : Bool) (addr data : Word)
  /-- CONFIGURATION_WORD (R157): a processor write. -/
  | configurationWord (addr value : Word)
  /-- PASSED_READ (R162): a processor read, with memory's answer. -/
  | passedRead (addr : Word) (answer : ReadAnswer)
  /-- PASSED_WRITE (R159): a processor write. -/
  | passedWrite (addr : Word) (data : WriteData)
  /-- METER_WORD0_READ (R106): a processor read of word 0 of a line's meter record. -/
  | meterWord0Read (line : Line) (answer : ReadAnswer)
  /-- GUARDED_WRITE (R161): a processor write. -/
  | guardedWrite (addr value : Word)
  /-- STATUS_READ (R171): a processor read of CELLS offset 0. -/
  | statusRead
  /-- REPORT_A_READ (R169): a processor read of CELLS offset 1. -/
  | reportARead
  /-- READ_INDEX_WRITE (R136): a processor write to CELLS offset 4. -/
  | readIndexWrite (data : WriteData)
  /-- ARGUMENT_WORD_WRITE (R143): a processor write to word 0, 1 or 2 of an order slot. -/
  | argumentWordWrite (slot : OrderSlot) (word : Fin 3) (data : WriteData)
  /-- ORDER_WORD_WRITE (R144): a processor write to word 3 of an order slot. -/
  | orderWordWrite (slot : OrderSlot) (data : WriteData)
  /-- STRETCH_TIMER_EXPIRY (R146). -/
  | stretchTimerExpiry
  /-- ORDER_TAKEN (R145): the order-word write in progress completes at memory. -/
  | orderTaken
  /-- BAD_ORDER (R148): an order of a kind outside 1 to 13. -/
  | badOrder (slot : OrderSlot) (kind : BitVec 5) (w0 w1 w2 : Word)
  /-- CONNECT_LOCAL (R28). -/
  | connectLocal (slot : OrderSlot) (calling called : Word)
  /-- CONNECT_OUTGOING (R29). -/
  | connectOutgoing (slot : OrderSlot) (calling group dist : Word)
  /-- CONNECT_INCOMING (R30). -/
  | connectIncoming (slot : OrderSlot) (circuit called : Word)
  /-- RELEASE (R33). -/
  | release (slot : OrderSlot) (circuit : Word)
  /-- ADD_CREDIT (R116, R117). -/
  | addCredit (slot : OrderSlot) (circuit n : Word)
  /-- SET_CLASS (R27). -/
  | setClass (slot : OrderSlot) (line cls : Word)
  /-- SET_METER (R107): value = `low` + 65,536 × bits 0 to 3 of `high`. -/
  | setMeter (slot : OrderSlot) (line low high : Word)
  /-- SET_TIME (R76). -/
  | setTime (slot : OrderSlot) (minute second : Word)
  /-- LOAD_TARIFF (R84): `bandInit` holds the time band and the initial pulses. -/
  | loadTariff (slot : OrderSlot) (dist bandInit interval : Word)
  /-- LOAD_CALENDAR (R78). -/
  | loadCalendar (slot : OrderSlot) (index minute band : Word)
  /-- SET_FAULT (R13): stage and the two coordinate words. -/
  | setFault (slot : OrderSlot) (stage coord1 coord2 : Word)
  /-- CLEAR_FAULT (R14): a target other than the meter, and the two coordinate words. -/
  | clearFault (slot : OrderSlot) (target coord1 coord2 : Word)
  /-- CLEAR_FAULT_METER (R110): CLEAR FAULT with the meter target. -/
  | clearFaultMeter (slot : OrderSlot) (line : Word)
  /-- SERVICE_LINK (R10): SERVICE with the link target; `linkDir` holds link number and direction. -/
  | serviceLink (slot : OrderSlot) (group linkDir : Word)
  /-- SERVICE_CIRCUIT (R10): SERVICE with the circuit target; bit 15 of `dir` is the direction. -/
  | serviceCircuit (slot : OrderSlot) (circuit dir : Word)
  /-- RESULT_WRITE_COMPLETE (R151). -/
  | resultWriteComplete
  /-- TICKET_BURST_END (R135). -/
  | ticketBurstEnd
  /-- SET_METER_WRITE_COMPLETE (R109). -/
  | setMeterWriteComplete
  /-- POSTING_END (R100). -/
  | postingEnd
  /-- POSTING_PARITY_ERROR (R102): a read of the posting is answered with MPERR. -/
  | postingParityError
  /-- POSTING_RECORD_CORRUPT (R103). -/
  | postingRecordCorrupt
  /-- METERING_TICK (R89). -/
  | meteringTick
  /-- GRACE_EXPIRY (R121). -/
  | graceExpiry (circuit : Circuit)
  /-- MINUTE_ROLLOVER (R74). -/
  | minuteRollover
  /-- SCAN (R38): bit i of `raw` is the raw state of point i, 1 for present. -/
  | scan (raw : BitVec 112)
  /-- F_APPEARS (R40). -/
  | fAppears (circuit : Circuit)
  /-- F_DISAPPEARS (R44). -/
  | fDisappears (circuit : Circuit)
  /-- B_APPEARS (R43). -/
  | bAppears (circuit : Circuit)
  /-- B_DISAPPEARS (R45). -/
  | bDisappears (circuit : Circuit)
  /-- SETTLE_EXPIRY (R42). -/
  | settleExpiry (circuit : Circuit)
  /-- CALLED_CLEAR_EXPIRY (R46). -/
  | calledClearExpiry (circuit : Circuit)
  /-- GUARD_EXPIRY (R50). -/
  | guardExpiry (circuit : Circuit)
  /-- COMMAND_SENT (R55): the command on MXO has been sent in full. -/
  | commandSent
  /-- MAKE_DONE (R56): a DONE to MAKE is received on MXI. -/
  | makeDone (resp : Response)
  /-- MAKE_FAIL (R58): a FAIL to MAKE is received on MXI. -/
  | makeFail (resp : Response)
  /-- MAKE_TIMEOUT (R58): the response timer of the MAKE of a crosspoint reaches 80 ms. -/
  | makeTimeout (xp : Crosspoint)
  /-- BREAK_DONE (R65): a DONE to BREAK is received on MXI. -/
  | breakDone (resp : Response)
  /-- BREAK_FAIL (R65): a FAIL to BREAK is received on MXI. -/
  | breakFail (resp : Response)
  /-- BREAK_TIMEOUT (R65): the response timer of the BREAK of a crosspoint reaches 80 ms. -/
  | breakTimeout (xp : Crosspoint)
deriving DecidableEq, Repr

end Sys2Proof
end

