-- ==== Sys2Proof/Config.lean ====
section
/-!
DEFINITION. The numbers the spec fixes: lengths of the timers and intervals in periods of the 4.096 MHz CLK
(spec/11, section 11.11), capacities, persistences and limits.

The spec leaves no value undefined after which the part goes on, so this file declares no free value.
-/

namespace Sys2Proof.Config

/-- CLK periods in one metering tick of 100 ms (R72). -/
def tickPeriods : Nat := 409600

/-- CLK periods in one scan interval of 10 ms (R38). -/
def scanPeriods : Nat := 40960

/-- CLK periods in one scan round: "the whole round taking 280 µs from the interval's start" (R175), 1,146.88 periods, the last
one whole. -/
def scanRoundPeriods : Nat := 1147

/-- CLK periods in the settle window of 200 ms (R41). -/
def settlePeriods : Nat := 819200

/-- CLK periods in the release guard of 300 ms (R49). -/
def releaseGuardPeriods : Nat := 1228800

/-- CLK periods in the start-up guard of 1 s (R22, R49). -/
def startUpGuardPeriods : Nat := 4096000

/-- CLK periods in the called-clear length of 60 s, cords and incoming junctions (R45). -/
def calledClearLongPeriods : Nat := 245760000

/-- CLK periods in the called-clear length of 2 s, outgoing junctions (R45). -/
def calledClearShortPeriods : Nat := 8192000

/-- CLK periods of the stretch timer: "40 µs, 164 CLK periods" (R146; spec/11, section 11.11). -/
def stretchPeriods : Nat := 164

/-- CLK periods in the Matrix Port response timer of 80 ms (R55). -/
def responsePeriods : Nat := 327680

/-- CLK periods in one Matrix Port bit time: "CLK divided by 64" (R174). -/
def bitPeriods : Nat := 64

/-- CLK periods in one Matrix Port frame of 19 bit times (R174). -/
def framePeriods : Nat := 1216

/-- CLK periods in one memory access (spec/11, section 11.11). -/
def accessPeriods : Nat := 2

/-- Length of the grace timer, in ticks (R114). -/
def graceTicks : Nat := 100

/-- Count at which an appearance is recognised (R39). -/
def appearCount : Nat := 10

/-- Count at which a disappearance is recognised (R39). -/
def disappearCount : Nat := 25

/-- Capacity of the order queue (R145). -/
def orderQueueCapacity : Nat := 8

/-- Capacity of the ticket hold queue (R130). -/
def holdQueueCapacity : Nat := 8

/-- Capacity of the report queue (R168). -/
def reportQueueCapacity : Nat := 32

/-- Capacity of the crosspoint fault table (section 1.4). -/
def faultTableCapacity : Nat := 32

/-- Grants to the processor in a row after which a waiting 716 request is granted (R163). -/
def grantLimit : Nat := 8

/-- The accumulator counts to this for one pulse (R89). -/
def pulseUnit : Nat := 65536

/-- Largest value of the paid and pending counts (R93). -/
def countMax : Nat := 65535

/-- Largest value of the owed count (R113). -/
def owedMax : Nat := 127

/-- Largest value of the credit (R117). -/
def creditMax : Nat := 255

/-- Largest value of the duration, in ticks (R90). -/
def durationMax : Nat := 16777215

/-- The count of a meter record wraps here (R99). -/
def meterModulus : Nat := 1000000

/-- Minutes in the week (R74). -/
def weekMinutes : Nat := 10080

end Sys2Proof.Config
end

