-- ==== Sys2Proof/Machine/State.lean ====
section
/-!
DEFINITION. The state of the 716: everything its ten blocks hold, the call store behind it, and the queue of the
commands that wait. Plain data throughout.

Timers hold the CLK periods left; a timer that is `none` is absent (R21).
-/

namespace Sys2Proof.Machine

/-! ## Reasons to stop -/

/-- Faults: the spec lets nothing stop the part (errors are answered on the bus, in results, reports and stickies), so
this type has no constructor and no meaning faults. -/
inductive Fault where
deriving DecidableEq, Repr

/-- Refusals. -/
inductive Refusal where
  /-- Raised only by an arm of exec for a command that has no meaning yet. Safe. No arm raises it at present. -/
  | notModelled (mnemonic : String)
deriving DecidableEq, Repr

/-! ## Call Store Path (spec/09) -/

/-- The configuration phase (spec/09, table at its head). -/
inductive Phase where
  /-- HELD: MRST is active. -/
  | held
  /-- LOADING, with the configuration words taken so far, first one first (R157). -/
  | loading (taken : List Word)
  /-- READY: the region map is in force. -/
  | ready
deriving DecidableEq, Repr

/-- The region map: five bases and the ring size code (R155). -/
structure RegionMap where
  order : Word
  cells : Word
  calls : Word
  meter : Word
  ticket : Word
  code : Nat
deriving DecidableEq, Repr

/-- The preset layout (R156). -/
def RegionMap.preset : RegionMap :=
  { order := 0xF000, cells := 0xF080, calls := 0xF100, meter := 0xF400, ticket := 0xE000, code := 5 }

/-- A processor cycle. The read carries the memory's MPERR answer, should it reach memory (R166). -/
inductive Cycle where
  | read (addr : Word) (mperr : Bool)
  | write (addr data : Word)
deriving DecidableEq, Repr

/-- How a processor cycle ends (R162). -/
inductive CycleEnd where
  /-- PRDY with the word read. -/
  | prdyWord (w : Word)
  /-- PRDY of a write. -/
  | prdy
  /-- PBERR. -/
  | pberr
deriving DecidableEq, Repr

/-- The stretch of the order write at the head of the processor's cycles (R146). -/
inductive Stretch where
  /-- No order write is stretched. -/
  | none
  /-- Held, with the CLK periods left of its 40 µs. -/
  | held (left : Nat)
  /-- A place has freed and is kept for it; it waits for its second grant. -/
  | placeKept
deriving DecidableEq, Repr

/-- Whether a posting is a first attempt or a retry (R97). -/
inductive Attempt where
  | first
  | retry
deriving DecidableEq, Repr

/-- A posting in progress: its line, the pulses p taken for it, its attempt (R97). -/
structure Posting where
  line : Line
  pulses : Nat
  attempt : Attempt
deriving DecidableEq, Repr

/-- The owner of the memory port (R162, R163, R165). -/
inductive Owner where
  | none
  /-- The processor's order write, between its grant and its completion at memory (R144, R145). -/
  | processor
  /-- A passed cycle of the processor, between its grant and the end of its memory access (R162; assumption log 7). -/
  | passed
  | resultWrite
  | ticketBurst
  | setMeter
  | posting (p : Posting)
deriving DecidableEq, Repr

/-- The call store: pairs of address and word. An address that is not listed reads 0 (assumption log 3). -/
abbrev Memory := List (Nat × Word)

/-! ## Order Unit (spec/08) -/

/-- The state of an order slot (R142). -/
inductive SlotState where
  | idle
  | queued
  | inFlight
deriving DecidableEq, Repr

/-- An order slot: its state and its staging copy (R142). -/
structure SlotEntry where
  state : SlotState
  w0 : Word
  w1 : Word
  w2 : Word
deriving DecidableEq, Repr

/-- An entry of the order queue (R145). -/
structure OrderEntry where
  slot : OrderSlot
  kind : BitVec 5
  w0 : Word
  w1 : Word
  w2 : Word
deriving DecidableEq, Repr

/-- The results of orders (section 8.5). -/
inductive ResultCode where
  | done
  | connected
  | callerBusy
  | calledBusy
  | unobtainable
  | barred
  | congestion
  | pathFault
  | billingFull
  | released
  | notActive
  | notCoin
  | clamped
  | lineBusy
  | pendingPulses
  | notSpare
  | badArgument
  | badOrder
  | tableFull
  | badLine
deriving DecidableEq, Repr

/-- A result handed to the Order Unit; a circuit of `none` is written as 63 (R150). -/
structure Result where
  slot : OrderSlot
  code : ResultCode
  circuit : Option Circuit
deriving DecidableEq, Repr

/-- The dispatcher (R148, R149). -/
inductive Dispatcher where
  | ready
  | waiting (slot : OrderSlot)
deriving DecidableEq, Repr

/-! ## Network Map (spec/01) -/

/-- An entry of the link table (section 1.3). -/
structure Link where
  holder : Option Circuit
  inService : Bool
deriving DecidableEq, Repr

/-! ## Call records (spec/02) -/

/-- The state of a crosspoint on a path (section 1.2). -/
inductive Mark where
  | unmade
  | inFlight
  | made
deriving DecidableEq, Repr

/-- A crosspoint of a path with its mark. -/
structure PathPoint where
  xp : Crosspoint
  mark : Mark
deriving DecidableEq, Repr

/-- A path, in make order. -/
abbrev Path := List PathPoint

/-- The nine states of a call record (section 2.2). -/
inductive CallState where
  | free
  | guarded
  | seized
  | reserved
  | setting
  | ringing
  | answered
  | clearing
  | closing
deriving DecidableEq, Repr

/-- The kind of a record, fixed by its circuit number (R22). -/
inductive CallKind where
  | localCall
  | outgoing
  | incoming
deriving DecidableEq, Repr

/-- The called party: a line, or an outgoing junction (section 2.1). -/
inductive Called where
  | line (l : Line)
  | junction (n : Junction)
deriving DecidableEq, Repr

/-- The clear causes (section 2.1). -/
inductive ClearCause where
  | callerClear
  | calledClear
  | order
  | credit
  | pathFault
deriving DecidableEq, Repr

/-- The answer stamp: the band, and for local and outgoing records the week minute and second (R43). -/
structure Stamp where
  band : TimeBand
  time : Option (Nat × Nat)
deriving DecidableEq, Repr

/-- A call record (section 2.1). -/
structure CallRecord where
  state : CallState
  calling : Option Line
  called : Option Called
  distBand : DistBand
  coin : Bool
  detailed : Bool
  ticket : Bool
  path : Path
  boundSlot : Option OrderSlot
  rehuntUsed : Bool
  releasePending : Bool
  acc : Nat
  paid : Nat
  owed : Nat
  credit : Nat
  settle : Option Nat
  guardTimer : Option Nat
  calledClear : Option Nat
  grace : Option Nat
  stamp : Option Stamp
  timeUnsetAtAnswer : Bool
  duration : Nat
  cause : Option ClearCause
  bandChanged : Bool
  calledClearSeen : Bool
  reAnswer : Bool
  payToneSent : Bool
  creditAdded : Bool
deriving DecidableEq, Repr

/-- A record in a given state with every call field absent or zero and every flag clear (R22, R23). -/
def CallRecord.blank (st : CallState) : CallRecord :=
  { state := st, calling := none, called := none, distBand := 0, coin := false, detailed := false, ticket := false,
    path := [], boundSlot := none, rehuntUsed := false, releasePending := false, acc := 0, paid := 0, owed := 0,
    credit := 0, settle := none, guardTimer := none, calledClear := none, grace := none, stamp := none,
    timeUnsetAtAnswer := false, duration := 0, cause := none, bandChanged := false, calledClearSeen := false,
    reAnswer := false, payToneSent := false, creditAdded := false }

/-! ## Line table (spec/02, section 2.3) -/

/-- The line classes. -/
inductive LineClass where
  | spare
  | ordinary
  | detailed
  | coin
  | incomingOnly
deriving DecidableEq, Repr

/-- The meter faults (section 5.3). -/
inductive MeterFault where
  | none
  | parity
  | corrupt
  | saturated
deriving DecidableEq, Repr

/-- An entry of the line table; `pulses` is the pending pulse count. -/
structure LineEntry where
  cls : LineClass
  busy : Option Circuit
  pulses : Nat
  fault : MeterFault
deriving DecidableEq, Repr

/-! ## Operate Controller (spec/03) -/

/-- A command of the Matrix Port (section 3.2); MAKE and BREAK carry the record that issued them. -/
inductive PortCommand where
  | makeCmd (x : Circuit) (xp : Crosspoint)
  | breakCmd (x : Circuit) (xp : Crosspoint)
  | clearAll
  | payTone (x : Circuit)
deriving DecidableEq, Repr

/-- The kind of a job and of the commands it issues. -/
inductive JobKind where
  | makeJob
  | breakJob
deriving DecidableEq, Repr

/-- An entry of the outstanding list, with the CLK periods left of its response timer (R55). -/
structure Outstanding where
  kind : JobKind
  xp : Crosspoint
  circuit : Circuit
  left : Nat
deriving DecidableEq, Repr

/-! ## Supervision Scanner (spec/02, section 2.6) -/

/-- A supervision point: filtered state and persistence count (R39). -/
structure PointState where
  present : Bool
  count : Option Nat
deriving DecidableEq, Repr

/-! ## Time Base (spec/04) -/

/-- A calendar entry (R77). -/
structure CalEntry where
  valid : Bool
  minute : Nat
  band : TimeBand
deriving DecidableEq, Repr

/-- A tariff entry (R83). -/
structure TariffEntry where
  interval : Nat
  initial : Nat
  increment : Nat
deriving DecidableEq, Repr

/-! ## Meter Engine and Ticket Unit (spec/05, spec/07) -/

/-- A SET METER that has passed its checks and whose sequence is not yet complete (R108). -/
structure SetMeterJob where
  slot : OrderSlot
  line : Line
  value : Nat
deriving DecidableEq, Repr

/-- The fields of a composed ticket but for its number (R126). -/
structure TicketBody where
  circuit : Circuit
  cause : Option ClearCause
  timeUnset : Bool
  longCall : Bool
  bandChanged : Bool
  calledClearSeen : Bool
  reAnswer : Bool
  payToneSent : Bool
  creditAdded : Bool
  coin : Bool
  detailed : Bool
  calling : Option Line
  distBand : DistBand
  called : Option Called
  bandAtAnswer : TimeBand
  answerMinute : Nat
  answerSecond : Nat
  duration : Nat
  paid : Nat
  credit : Nat
  owed : Nat
deriving DecidableEq, Repr

/-- A ticket of the hold queue (R129). -/
structure Ticket where
  seq : Nat
  body : TicketBody
deriving DecidableEq, Repr

/-- The burst state of the Ticket Unit (R134). -/
inductive BurstState where
  | idle
  | waiting
  | writing
deriving DecidableEq, Repr

/-! ## Report Unit (spec/10) -/

/-- The causes a CROSSPOINT FAULT report carries (section 1.4). -/
inductive FaultCause where
  | fail
  | makeTimeout
  | breakTimeout
deriving DecidableEq, Repr

/-- A report: its kind with its subject and detail (section 10.1). -/
inductive Report where
  | answer (x : Circuit) (band : TimeBand)
  | clear (x : Circuit) (cause : ClearCause)
  | seize (x : Circuit)
  | abandon (x : Circuit)
  | calledClear (x : Circuit)
  | reAnswer (x : Circuit)
  | payTone (x : Circuit) (owed : Nat)
  | crosspointFault (xp : Crosspoint) (cause : FaultCause)
  | linkOut (g : LineGroup) (k : LinkNo)
  | meterFault (l : Line) (found : MeterFault)
  | ticketIndexError (value : Word)
  | bandChange (band : TimeBand)
deriving DecidableEq, Repr

/-! ## The machine -/

/-- The state of the 716 with its call store and its queue of waiting commands. -/
structure State where
  -- Call Store Path
  phase : Phase
  map : RegionMap
  configFault : Bool
  readPair : Option Line
  grantCount : Nat
  owner : Owner
  accessLeft : Nat
  cycles : List Cycle
  stretch : Stretch
  ends : List CycleEnd
  mem : Memory
  -- Order Unit
  slots : Vector SlotEntry 32
  orderQueue : List OrderEntry
  threshold : Nat
  dispatcher : Dispatcher
  results : List Result
  -- Network Map
  links : Vector Link 160
  circuitInService : Vector Bool 56
  faults : List Crosspoint
  cordPtr : Cord
  groupPtrs : Vector (Fin 8) 3
  -- Operate Controller
  operateSlots : Vector (Option Circuit) 4
  waitList : List Circuit
  txQueue : List PortCommand
  onWire : Option PortCommand
  wireLeft : Nat
  bitClock : Nat
  outstanding : List Outstanding
  -- Supervision Scanner
  points : Vector PointState 112
  scanPins : BitVec 112
  scanDivider : Nat
  -- Call Record Table
  records : Vector CallRecord 56
  lines : Vector LineEntry 512
  -- Time Base
  tickDivider : Nat
  weekMinute : Nat
  second : Nat
  tenths : Nat
  timeUnset : Bool
  calendar : Vector CalEntry 16
  band : TimeBand
  tariff : Vector TariffEntry 32
  -- Meter Engine
  postPointer : Line
  retryLine : Option Line
  setMeterJob : Option SetMeterJob
  meterRequest : Bool
  -- Ticket Unit
  holdQueue : List Ticket
  closingWaiters : List (Circuit × TicketBody)
  seqCounter : Nat
  writeIndex : Nat
  readIndex : Nat
  ringFull : Bool
  burst : BurstState
  -- Report Unit
  reports : List Report
  latch : Option Report
  reportsLost : Bool
  memoryError : Bool
  guardedWrite : Bool
  -- the model's queue of waiting commands
  pending : List Instr
deriving DecidableEq, Repr

/-- The part as master reset leaves it, MRST still active (R167 and the "After master reset" columns of the chapters):
phase HELD, every record in GUARD with the start-up guard, CLEAR ALL alone in the transmit queue (R68), every table at
its master reset values. The scan divider counts CLK periods from the end of one scan round to the end of the next, so the interval
that starts at the release of MRST stands one round before its end (R38, R175). The values of fields the spec gives none for are
those of assumption log 2, 3 and 29. -/
def State.reset : State :=
  { phase := .held
    map := RegionMap.preset
    configFault := false
    readPair := none
    grantCount := 0
    owner := .none
    accessLeft := 0
    cycles := []
    stretch := .none
    ends := []
    mem := []
    slots := Vector.replicate 32 { state := .idle, w0 := 0, w1 := 0, w2 := 0 }
    orderQueue := []
    threshold := 6
    dispatcher := .ready
    results := []
    links := Vector.replicate 160 { holder := none, inService := true }
    circuitInService := Vector.replicate 56 true
    faults := []
    cordPtr := 0
    groupPtrs := Vector.replicate 3 0
    operateSlots := Vector.replicate 4 none
    waitList := []
    txQueue := [.clearAll]
    onWire := none
    wireLeft := 0
    bitClock := 0
    outstanding := []
    points := Vector.replicate 112 { present := false, count := none }
    scanPins := 0
    scanDivider := Config.scanPeriods - Config.scanRoundPeriods
    records := Vector.replicate 56
      { CallRecord.blank .guarded with guardTimer := some Config.startUpGuardPeriods }
    lines := Vector.replicate 512 { cls := .spare, busy := none, pulses := 0, fault := .none }
    tickDivider := 0
    weekMinute := 0
    second := 0
    tenths := 0
    timeUnset := true
    calendar := Vector.replicate 16 { valid := false, minute := 0, band := 0 }
    band := 0
    tariff := Vector.replicate 32 { interval := 0, initial := 0, increment := 0 }
    postPointer := 0
    retryLine := none
    setMeterJob := none
    meterRequest := false
    holdQueue := []
    closingWaiters := []
    seqCounter := 0
    writeIndex := 0
    readIndex := 0
    ringFull := false
    burst := .idle
    reports := []
    latch := none
    reportsLost := false
    memoryError := false
    guardedWrite := false
    pending := [] }

end Sys2Proof.Machine
end

