-- ==== Sys2Proof/Machine/Ops.lean ====
section
/-!
DEFINITION. The named operations every block uses: the call store, the tables of records, lines, links, slots and
points, the report queue and stickies, the result list, and the numbering of the network (R1 to R4).
-/

namespace Sys2Proof.Machine

/-! ## The call store -/

/-- What a word that is not listed reads as (assumption log 3). -/
def blankWord : Word := 0

/-- The word at an address. -/
def Memory.readWord : Memory → Nat → Word
  | [], _ => blankWord
  | (b, w) :: rest, a => if b = a then w else Memory.readWord rest a

/-- Put a pair in front, unless its word is what an unlisted address reads as. -/
def Memory.consWord (a : Nat) (w : Word) (m : Memory) : Memory :=
  if w = blankWord then m else (a, w) :: m

/-- Write a word, keeping the addresses rising and listing no word that reads as an unlisted one. -/
def Memory.writeWord : Memory → Nat → Word → Memory
  | [], a, w => Memory.consWord a w []
  | (b, v) :: rest, a, w =>
    if a < b then Memory.consWord a w ((b, v) :: rest)
    else if a = b then Memory.consWord a w rest
    else (b, v) :: Memory.writeWord rest a w

/-- Every address of the list is at or above `n`, the addresses rise strictly, and no listed word is blank. -/
def Memory.wfFrom : Nat → Memory → Bool
  | _, [] => true
  | n, (b, v) :: rest => decide (n ≤ b) && decide (v ≠ blankWord) && Memory.wfFrom (b + 1) rest

/-- The canonical form of the call store. -/
def Memory.wf (m : Memory) : Bool := Memory.wfFrom 0 m

/-- The word of the call store at an address. -/
def State.readMem (s : State) (a : Word) : Word := Memory.readWord s.mem a.toNat

/-- Write a word of the call store. -/
def State.writeMem (s : State) (a w : Word) : State := { s with mem := Memory.writeWord s.mem a.toNat w }

/-! ## Circuits, lines and the network (R1 to R4, R22) -/

/-- The kind of the record of a circuit (R22). -/
def circuitKind (x : Circuit) : CallKind :=
  if x.val < 24 then .localCall else if x.val < 48 then .outgoing else .incoming

/-- Line group of a line: L div 32 (R1). -/
def lineGroup (l : Line) : LineGroup := ⟨l.val / 32, by omega⟩

/-- Position of a line: L mod 32 (R1). -/
def linePosition (l : Line) : Position := ⟨l.val % 32, by omega⟩

/-- The B-switch of a terminal: t mod 10 (R2). -/
def terminalSwitch (t : Terminal) : LinkNo := ⟨t.val % 10, by omega⟩

/-- The outlet of a terminal: t div 10 (R2). -/
def terminalOutlet (t : Terminal) : Outlet := ⟨t.val / 10, by omega⟩

/-- The calling-end terminal of cord c: 2c (R2). -/
def cordTerminal0 (c : Cord) : Terminal := ⟨2 * c.val, by omega⟩

/-- The called-end terminal of cord c: 2c + 1 (R2). -/
def cordTerminal1 (c : Cord) : Terminal := ⟨2 * c.val + 1, by omega⟩

/-- The terminal of junction circuit x: x + 24 (R2). -/
def junctionTerminal (x : Circuit) : Terminal := ⟨x.val + 24, by omega⟩

/-- The circuit of a cord. -/
def cordCircuit (c : Cord) : Circuit := ⟨c.val, by omega⟩

/-- The circuit of the junction at a position of an outgoing group: 24 + 8G + position (R17). -/
def groupCircuit (g : JunctionGroup) (position : Fin 8) : Circuit := ⟨24 + 8 * g.val + position.val, by omega⟩

/-- The junction number of an outgoing circuit: x − 24 (R29). -/
def junctionOf (x : Circuit) : Junction := ⟨(x.val - 24) % 24, by omega⟩

/-- The group of an outgoing circuit. -/
def groupOf (x : Circuit) : JunctionGroup := ⟨(x.val - 24) / 8 % 3, by omega⟩

/-- The terminals of a circuit (R2). -/
def circuitTerminals (x : Circuit) : List Terminal :=
  if h : x.val < 24 then [cordTerminal0 ⟨x.val, h⟩, cordTerminal1 ⟨x.val, h⟩] else [junctionTerminal x]

/-- The A-link a crosspoint lies on (R1). -/
def crosspointLink : Crosspoint → LineGroup × LinkNo
  | .a g _ k => (g, k)
  | .b k g _ => (g, k)

/-- A path of unmade crosspoints. -/
def unmadePath (xps : List Crosspoint) : Path := xps.map fun xp => { xp := xp, mark := .unmade }

/-- The path of a local call from line `la` to line `lb` on cord c, in make order (R3). -/
def localPath (c : Cord) (la lb : Line) : Path :=
  unmadePath
    [.a (lineGroup la) (linePosition la) (terminalSwitch (cordTerminal0 c)),
     .b (terminalSwitch (cordTerminal0 c)) (lineGroup la) (terminalOutlet (cordTerminal0 c)),
     .a (lineGroup lb) (linePosition lb) (terminalSwitch (cordTerminal1 c)),
     .b (terminalSwitch (cordTerminal1 c)) (lineGroup lb) (terminalOutlet (cordTerminal1 c))]

/-- The path of an outgoing call for calling line `l` on junction circuit x, in make order (R4). -/
def outgoingPath (x : Circuit) (l : Line) : Path :=
  unmadePath
    [.a (lineGroup l) (linePosition l) (terminalSwitch (junctionTerminal x)),
     .b (terminalSwitch (junctionTerminal x)) (lineGroup l) (terminalOutlet (junctionTerminal x))]

/-- The path of an incoming call for called line `l` on junction circuit x, in make order (R4). -/
def incomingPath (x : Circuit) (l : Line) : Path :=
  unmadePath
    [.b (terminalSwitch (junctionTerminal x)) (lineGroup l) (terminalOutlet (junctionTerminal x)),
     .a (lineGroup l) (linePosition l) (terminalSwitch (junctionTerminal x))]

/-! ## Tables -/

/-- The call record of a circuit. -/
def State.record (s : State) (x : Circuit) : CallRecord := s.records[x]

/-- Replace the call record of a circuit. -/
def State.setRecord (s : State) (x : Circuit) (r : CallRecord) : State :=
  { s with records := s.records.set x.val r x.isLt }

/-- Change the call record of a circuit. -/
def State.modifyRecord (s : State) (x : Circuit) (f : CallRecord → CallRecord) : State :=
  s.setRecord x (f (s.record x))

/-- The line table entry of a line. -/
def State.line (s : State) (l : Line) : LineEntry := s.lines[l]

/-- Replace the line table entry of a line. -/
def State.setLine (s : State) (l : Line) (e : LineEntry) : State :=
  { s with lines := s.lines.set l.val e l.isLt }

/-- Change the line table entry of a line. -/
def State.modifyLine (s : State) (l : Line) (f : LineEntry → LineEntry) : State :=
  s.setLine l (f (s.line l))

/-- Set the busy reference of a line, if there is a line (R26). -/
def State.setBusy (s : State) (l : Option Line) (b : Option Circuit) : State :=
  match l with
  | some l => s.modifyLine l fun e => { e with busy := b }
  | none => s

/-- The line that a record names as called, if its called party is a line. -/
def calledLine : Option Called → Option Line
  | some (.line l) => some l
  | some (.junction _) => none
  | none => none

/-- The place of link (g, k) in the link table. -/
def linkIndex (gk : LineGroup × LinkNo) : Fin 160 := ⟨10 * gk.1.val + gk.2.val, by omega⟩

/-- The link table entry of link (g, k). -/
def State.link (s : State) (gk : LineGroup × LinkNo) : Link := s.links[linkIndex gk]

/-- Change the link table entry of link (g, k). -/
def State.modifyLink (s : State) (gk : LineGroup × LinkNo) (f : Link → Link) : State :=
  { s with links := s.links.set (linkIndex gk).val (f (s.link gk)) (linkIndex gk).isLt }

/-- The entry of an order slot. -/
def State.slot (s : State) (i : OrderSlot) : SlotEntry := s.slots[i]

/-- Change the entry of an order slot. -/
def State.modifySlot (s : State) (i : OrderSlot) (f : SlotEntry → SlotEntry) : State :=
  { s with slots := s.slots.set i.val (f (s.slot i)) i.isLt }

/-- Set the state of an order slot. -/
def State.setSlotState (s : State) (i : OrderSlot) (st : SlotState) : State :=
  s.modifySlot i fun e => { e with state := st }

/-- The F point of a circuit: point 2x (R38). -/
def fPoint (x : Circuit) : Point := ⟨2 * x.val, by omega⟩

/-- The B point of a circuit: point 2x + 1 (R38). -/
def bPoint (x : Circuit) : Point := ⟨2 * x.val + 1, by omega⟩

/-- The circuit of a point (R38). -/
def pointCircuit (p : Point) : Circuit := ⟨p.val / 2, by omega⟩

/-- Set the state of a supervision point. -/
def State.setPoint (s : State) (p : Point) (st : PointState) : State :=
  { s with points := s.points.set p.val st p.isLt }

/-- The filtered state of the F point of a circuit. -/
def State.fPresent (s : State) (x : Circuit) : Bool := s.points[fPoint x].present

/-- The filtered state of the B point of a circuit. -/
def State.bPresent (s : State) (x : Circuit) : Bool := s.points[bPoint x].present

/-- The tariff entry of a distance band and a time band. -/
def tariffIndex (d : DistBand) (b : TimeBand) : Fin 32 := ⟨4 * d.val + b.val, by omega⟩

/-- The tariff entry of a distance band and a time band (R83). -/
def State.tariffEntry (s : State) (d : DistBand) (b : TimeBand) : TariffEntry := s.tariff[tariffIndex d b]

/-! ## Reports, results, the transmit queue -/

/-- Hand a report to the Report Unit: it enters at the tail, or is dropped at a full queue (R168). -/
def State.report (s : State) (r : Report) : State :=
  if s.reports.length < Config.reportQueueCapacity then { s with reports := s.reports ++ [r] }
  else { s with reportsLost := true }

/-- ATTN is active while the report queue holds a report (R170). -/
def State.attnActive (s : State) : Bool := !s.reports.isEmpty

/-- Hand a result to the Order Unit: it is placed at the tail of the result list (R150). -/
def State.handResult (s : State) (slot : OrderSlot) (code : ResultCode) (circuit : Option Circuit) : State :=
  { s with results := s.results ++ [{ slot := slot, code := code, circuit := circuit }] }

/-- Hand over the connect result of a record for its bound order slot, and make the binding absent; with no binding
nothing is handed over (R57, R61 to R63, R67). -/
def State.handConnectResult (s : State) (x : Circuit) (code : ResultCode) : State :=
  match (s.record x).boundSlot with
  | some slot => (s.handResult slot code (some x)).modifyRecord x fun r => { r with boundSlot := none }
  | none => s

/-- Issue a command into the transmit queue at the tail (R54). -/
def State.issue (s : State) (c : PortCommand) : State := { s with txQueue := s.txQueue ++ [c] }

/-- Withdraw a command still in the transmit queue; the commands behind it close up (R54). -/
def State.withdraw (s : State) (c : PortCommand) : State := { s with txQueue := s.txQueue.filter fun d => d ≠ c }

/-- Issue PAY TONE for a circuit; it is merged with one that still waits in the queue (R69). -/
def State.issuePayTone (s : State) (x : Circuit) : State :=
  if s.txQueue.contains (.payTone x) then s else s.issue (.payTone x)

/-! ## Running -/

/-- MRST is active (spec/09: phase HELD). -/
def State.isHeld (s : State) : Bool := s.phase == .held

/-- The part is ready (R155). -/
def State.isReady (s : State) : Bool := s.phase == .ready

/-- An event of the part: while MRST is active no event of it is taken (R38, R49, R68, R72; assumption log 21). -/
def running (f : State → State) (s : State) : Host.Outcome State Fault Refusal :=
  .next (if s.isHeld then s else f s)

end Sys2Proof.Machine
end

