-- ==== Sys2Proof/Machine/Network.lean ====
section
/-!
DEFINITION. The Network Map (spec/01): releases of links, the fault table, links out of service, and the hunts.
-/

namespace Sys2Proof.Machine

/-! ## Links (R7, R8, R19) -/

/-- The holder of every link held by circuit x becomes none; other links are not touched (R7). -/
def State.releaseRequest (s : State) (x : Circuit) : State :=
  { s with links := s.links.map fun l => if l.holder = some x then { l with holder := none } else l }

/-- The Operate Controller takes a link out of service: in service no, and report LINK OUT (R8). -/
def State.linkOut (s : State) (gk : LineGroup × LinkNo) : State :=
  (s.modifyLink gk fun l => { l with inService := false }).report (.linkOut gk.1 gk.2)

/-- Set the holder of each A-link of a path to a circuit (R19). -/
def State.holdLinks (s : State) (x : Circuit) (p : Path) : State :=
  p.foldl (fun s q => s.modifyLink (crosspointLink q.xp) fun l => { l with holder := some x }) s

/-! ## The fault table (R12) -/

/-- A crosspoint is in the fault table. -/
def State.faulty (s : State) (xp : Crosspoint) : Bool := s.faults.contains xp

/-- Add a crosspoint to the fault table. -/
def State.addFault (s : State) (xp : Crosspoint) : State := { s with faults := s.faults ++ [xp] }

/-- The Operate Controller records a crosspoint with a cause: present, nothing; absent with room, the entry is added and
reported; absent and full, the link of the crosspoint goes out of service (R12). -/
def State.recordFault (s : State) (xp : Crosspoint) (c : FaultCause) : State :=
  if s.faulty xp then s
  else if s.faults.length < Config.faultTableCapacity then (s.addFault xp).report (.crosspointFault xp c)
  else s.linkOut (crosspointLink xp)

/-- A BREAK that timed out or failed: the crosspoint is recorded and its link taken out of service, once (R12, R65). -/
def State.recordBreakFault (s : State) (xp : Crosspoint) : State :=
  if s.faulty xp then s.linkOut (crosspointLink xp)
  else if s.faults.length < Config.faultTableCapacity then
    ((s.addFault xp).report (.crosspointFault xp .breakTimeout)).linkOut (crosspointLink xp)
  else s.linkOut (crosspointLink xp)

/-! ## Hunting (R15 to R20) -/

/-- What a re-hunt leaves out: the links, terminals and cord of the failed path (R20). -/
structure Exclusion where
  links : List (LineGroup × LinkNo)
  terminals : List Terminal
  cord : Option Circuit
deriving DecidableEq, Repr

/-- The exclusion set of a hunt that is no re-hunt. -/
def noExclusion : Exclusion := { links := [], terminals := [], cord := none }

/-- The exclusion set of the re-hunt of circuit x with its failed path (R20). -/
def failedExclusion (x : Circuit) (p : Path) : Exclusion :=
  { links := p.map fun q => crosspointLink q.xp
    terminals := circuitTerminals x
    cord := if circuitKind x = .localCall then some x else none }

/-- The crosspoint may be used: its link is held by none, in service and not excluded, and it is in no entry of the
fault table (R16 to R18). -/
def State.crosspointUsable (s : State) (ex : Exclusion) (xp : Crosspoint) : Bool :=
  decide ((s.link (crosspointLink xp)).holder = none) && (s.link (crosspointLink xp)).inService
    && !ex.links.contains (crosspointLink xp) && !s.faulty xp

/-- The path may be used, on a circuit in service that is not excluded (R16 to R18, R20). -/
def State.pathUsable (s : State) (ex : Exclusion) (x : Circuit) (p : Path) : Bool :=
  s.circuitInService[x] && p.all (fun q => s.crosspointUsable ex q.xp)
    && (circuitTerminals x).all (fun t => !ex.terminals.contains t) && decide (ex.cord ≠ some x)

/-- The circuit and path are suitable for a local or outgoing hunt: the record is FREE as well (R16, R17). -/
def State.suitable (s : State) (ex : Exclusion) (x : Circuit) (p : Path) : Bool :=
  decide ((s.record x).state = .free) && s.pathUsable ex x p

/-- The cords in the order a local hunt examines them: from the cord pointer upward, 23 followed by 0 (R16). -/
def State.cordOrder (s : State) : List Cord := (List.finRange 24).map fun i => s.cordPtr + i

/-- The positions of a group in the order an outgoing hunt examines them (R17). -/
def State.positionOrder (s : State) (g : JunctionGroup) : List (Fin 8) :=
  (List.finRange 8).map fun i => s.groupPtrs[g] + i

/-- The local hunt's choice: the first suitable cord (R16). -/
def State.localChoice (s : State) (ex : Exclusion) (la lb : Line) : Option Cord :=
  s.cordOrder.find? fun c => s.suitable ex (cordCircuit c) (localPath c la lb)

/-- The outgoing hunt's choice: the first suitable junction, by position (R17). -/
def State.outgoingChoice (s : State) (ex : Exclusion) (la : Line) (g : JunctionGroup) : Option (Fin 8) :=
  (s.positionOrder g).find? fun q => s.suitable ex (groupCircuit g q) (outgoingPath (groupCircuit g q) la)

/-- A successful hunt: the circuit, its path, and the state with the pointer moved and the links held (R19). -/
structure Hunted where
  circuit : Circuit
  path : Path
  after : State

/-- The local hunt (R16, R19): on success cp becomes (c + 1) mod 24. -/
def State.localHunt (s : State) (ex : Exclusion) (la lb : Line) : Option Hunted :=
  match s.localChoice ex la lb with
  | some c =>
    some { circuit := cordCircuit c, path := localPath c la lb,
           after := { s with cordPtr := c + 1 }.holdLinks (cordCircuit c) (localPath c la lb) }
  | none => none

/-- The outgoing hunt (R17, R19): on success the group's pointer becomes (position + 1) mod 8. -/
def State.outgoingHunt (s : State) (ex : Exclusion) (la : Line) (g : JunctionGroup) : Option Hunted :=
  match s.outgoingChoice ex la g with
  | some q =>
    some { circuit := groupCircuit g q, path := outgoingPath (groupCircuit g q) la,
           after := { s with groupPtrs := s.groupPtrs.set g.val (q + 1) g.isLt }.holdLinks (groupCircuit g q)
             (outgoingPath (groupCircuit g q) la) }
  | none => none

/-- The incoming hunt: the single candidate, and no pointer (R18, R19). -/
def State.incomingHunt (s : State) (x : Circuit) (lb : Line) : Option Hunted :=
  if s.pathUsable noExclusion x (incomingPath x lb) then
    some { circuit := x, path := incomingPath x lb, after := s.holdLinks x (incomingPath x lb) }
  else none

end Sys2Proof.Machine
end

