-- ==== Sys2Proof/Machine/Operands.lean ====
section
/-!
DEFINITION. Reading what enters the part: the arguments of orders (section 8.5, section 11.1, R173), the addresses of
processor cycles (R155), the configuration words (R157, R158) and the words received on MXI (R174).
-/

namespace Sys2Proof.Machine

/-! ## Order arguments -/

/-- A word read as a circuit 0 to 55. -/
def circuitArg (w : Word) : Option Circuit := if h : w.toNat < 56 then some ⟨w.toNat, h⟩ else none

/-- A word read as a line 0 to 511. -/
def lineArg (w : Word) : Option Line := if h : w.toNat < 512 then some ⟨w.toNat, h⟩ else none

/-- A word read as an outgoing group 0 to 2. -/
def groupArg (w : Word) : Option JunctionGroup := if h : w.toNat < 3 then some ⟨w.toNat, h⟩ else none

/-- A word read as the distance band of an outgoing call, 1 to 7 (R29). -/
def outgoingDistArg (w : Word) : Option DistBand :=
  if h : 1 ≤ w.toNat ∧ w.toNat < 8 then some ⟨w.toNat, h.2⟩ else none

/-- A word read as a distance band 0 to 7 (R84). -/
def distArg (w : Word) : Option DistBand := if h : w.toNat < 8 then some ⟨w.toNat, h⟩ else none

/-- A word read as a time band 0 to 3 (R78). -/
def bandArg (w : Word) : Option TimeBand := if h : w.toNat < 4 then some ⟨w.toNat, h⟩ else none

/-- A word read as a calendar index 0 to 15 (R78). -/
def calendarArg (w : Word) : Option (Fin 16) := if h : w.toNat < 16 then some ⟨w.toNat, h⟩ else none

/-- A word read as a line group 0 to 15. -/
def lineGroupArg (w : Word) : Option LineGroup := if h : w.toNat < 16 then some ⟨w.toNat, h⟩ else none

/-- A word read as a class code (section 11.1). -/
def classArg (w : Word) : Option LineClass :=
  match w.toNat with
  | 0 => some .spare
  | 1 => some .ordinary
  | 2 => some .detailed
  | 3 => some .coin
  | 4 => some .incomingOnly
  | _ => none

/-- Bits `lo` to `lo + len - 1` of a word, as a number. -/
def bitField {n : Nat} (w : BitVec n) (lo len : Nat) : Nat := (w.extractLsb' lo len).toNat

/-- The direction of a SERVICE order: bit 15, 1 in service (section 11.1). -/
def serviceDirection (w : Word) : Bool := w.getLsbD 15

/-- The link number of a SERVICE order: bits 0 to 3, 0 to 9 (section 11.1, R10). -/
def serviceLinkArg (w : Word) : Option LinkNo :=
  if h : bitField w 0 4 < 10 then some ⟨bitField w 0 4, h⟩ else none

/-- A-stage crosspoint from coordinates, if they are in range (R1). -/
def crosspointA (g p k : Nat) : Option Crosspoint :=
  if h : g < 16 ∧ p < 32 ∧ k < 10 then some (.a ⟨g, h.1⟩ ⟨p, h.2.1⟩ ⟨k, h.2.2⟩) else none

/-- B-stage crosspoint from coordinates, if they are in range (R1). -/
def crosspointB (k g j : Nat) : Option Crosspoint :=
  if h : k < 10 ∧ g < 16 ∧ j < 8 then some (.b ⟨k, h.1⟩ ⟨g, h.2.1⟩ ⟨j, h.2.2⟩) else none

/-- The crosspoint that SET FAULT or CLEAR FAULT names: stage 0 is A with word 1 = (g, p) and word 2 = k; stage 1 is B
with word 1 = (k, g) and word 2 = j (section 11.1); any other stage or a coordinate out of range names none (R173). -/
def faultArg (stage w1 w2 : Word) : Option Crosspoint :=
  match stage.toNat with
  | 0 => crosspointA (bitField w1 8 8) (bitField w1 0 8) w2.toNat
  | 1 => crosspointB (bitField w1 8 8) (bitField w1 0 8) w2.toNat
  | _ => none

/-- The value of a SET METER: bits 0 to 3 of word 2 over the 16 bits of word 1 (R107). -/
def setMeterValue (low high : Word) : Nat := low.toNat + 65536 * bitField high 0 4

/-- Only the four low bits of SET METER word 2 may be set (R107). -/
def setMeterHighOk (high : Word) : Bool := high.toNat < 16

/-- Only bits 0 to 1 and 4 to 5 of LOAD TARIFF word 1 may be set (R84, section 11.1). -/
def tariffWordOk (w : Word) : Bool := w &&& 0xFFCC == 0

/-- The time band of LOAD TARIFF word 1: bits 0 to 1. -/
def tariffWordBand (w : Word) : TimeBand := ⟨bitField w 0 2, (w.extractLsb' 0 2).isLt⟩

/-- The initial pulses of LOAD TARIFF word 1: bits 4 to 5. -/
def tariffWordInitial (w : Word) : Nat := bitField w 4 2

/-! ## The region map -/

/-- The ring size N in slots: 16 × 2^code (R132). -/
def RegionMap.ringSize (m : RegionMap) : Nat := 16 * 2 ^ m.code

/-- Sizes of the regions in words (section 9.1). -/
def orderSize : Nat := 128

/-- Size of the CELLS region. -/
def cellsSize : Nat := 16

/-- Size of the CALLS region. -/
def callsSize : Nat := 256

/-- Size of the METER region. -/
def meterSize : Nat := 1024

/-- Size of the TICKET region: 8N (section 9.1). -/
def RegionMap.ticketSize (m : RegionMap) : Nat := 8 * m.ringSize

/-- Where an access lies: no region, or a region with the offset in it (R155). -/
inductive Region where
  | outside
  | order (off : Nat)
  | cells (off : Nat)
  | calls (off : Nat)
  | meter (off : Nat)
  | ticket (off : Nat)
deriving DecidableEq, Repr

/-- An address lies in the run of `size` words from `base` (R155). -/
def inRun (a base : Word) (size : Nat) : Bool := base.toNat ≤ a.toNat && a.toNat < base.toNat + size

/-- The region of an address (R155). -/
def RegionMap.region (m : RegionMap) (a : Word) : Region :=
  if inRun a m.order orderSize then .order (a.toNat - m.order.toNat)
  else if inRun a m.cells cellsSize then .cells (a.toNat - m.cells.toNat)
  else if inRun a m.calls callsSize then .calls (a.toNat - m.calls.toNat)
  else if inRun a m.meter meterSize then .meter (a.toNat - m.meter.toNat)
  else if inRun a m.ticket m.ticketSize then .ticket (a.toNat - m.ticket.toNat)
  else .outside

/-- The address at an offset of a region. -/
def regionAddr (base : Word) (off : Nat) : Word := base + BitVec.ofNat 16 off

/-- The order slot of an offset of the ORDER region (section 11.1). -/
def offsetSlot (off : Nat) : OrderSlot := Fin.ofNat 32 (off / 4)

/-- The address of a word of an order slot (section 11.1). -/
def RegionMap.slotAddr (m : RegionMap) (i : OrderSlot) (word : Nat) : Word := regionAddr m.order (4 * i.val + word)

/-- The address of a cell. -/
def RegionMap.cellAddr (m : RegionMap) (off : Nat) : Word := regionAddr m.cells off

/-- The address of a word of a line's meter record (R96). -/
def RegionMap.meterAddr (m : RegionMap) (l : Line) (word : Nat) : Word := regionAddr m.meter (2 * l.val + word)

/-- The address of a word of a ring slot (R132). -/
def RegionMap.ticketAddr (m : RegionMap) (slot word : Nat) : Word := regionAddr m.ticket (8 * slot + word)

/-! ## The configuration set (R157, R158) -/

/-- Two runs share no address. -/
def runsApart (b1 : Word) (n1 : Nat) (b2 : Word) (n2 : Nat) : Bool :=
  b1.toNat + n1 ≤ b2.toNat || b2.toNat + n2 ≤ b1.toNat

/-- The five regions as (base, size). -/
def RegionMap.runs (m : RegionMap) : List (Word × Nat) :=
  [(m.order, orderSize), (m.cells, cellsSize), (m.calls, callsSize), (m.meter, meterSize), (m.ticket, m.ticketSize)]

/-- No two runs of a list share an address. -/
def allApart : List (Word × Nat) → Bool
  | [] => true
  | r :: rest => rest.all (fun q => runsApart r.1 r.2 q.1 q.2) && allApart rest

/-- The set is valid: code 0 to 5, threshold 1 to 8, each base a multiple of its region's size, no address shared
(R158). -/
def configValid (m : RegionMap) (threshold : Nat) : Bool :=
  decide (m.code ≤ 5) && decide (1 ≤ threshold) && decide (threshold ≤ 8)
    && m.runs.all (fun r => r.1.toNat % r.2 == 0) && allApart m.runs

/-- The map that six configuration words give (R157). -/
def configMap (order cells calls meter ticket param : Word) : RegionMap :=
  { order := order, cells := cells, calls := calls, meter := meter, ticket := ticket, code := bitField param 0 3 }

/-- The threshold of a parameter word: bits 4 to 7 (R157). -/
def configThreshold (param : Word) : Nat := bitField param 4 4

/-! ## Words received on MXI (R174, section 11.8) -/

/-- The 16 bits of a response word: bit 15 FAIL, bit 14 BREAK, and the body received. -/
def responseWord (fail brk : Bool) (r : Response) : Word := BitVec.ofBool fail ++ (BitVec.ofBool brk ++ r.body)

/-- How many bits of a word are 1. -/
def onesCount {n : Nat} (w : BitVec n) : Nat := ((List.range n).filter fun i => w.getLsbD i).length

/-- The frame passes: odd parity over the 16 bits with the parity bit, and a high stop bit (R174). -/
def frameOk (w : Word) (r : Response) : Bool := r.stop && (onesCount w + r.parity.toNat) % 2 == 1

/-- The crosspoint of a response body: stage A has k in bits 0 to 3, p in 4 to 8, g in 9 to 12; stage B has j in bits
0 to 2, g in 4 to 7, k in 8 to 11, and is discarded with bit 3 or bit 12 set; a coordinate out of range names none
(section 11.8, R174). -/
def bodyCrosspoint (b : BitVec 14) : Option Crosspoint :=
  if b.getLsbD 13 then
    if b.getLsbD 3 || b.getLsbD 12 then none else crosspointB (bitField b 8 4) (bitField b 4 4) (bitField b 0 3)
  else crosspointA (bitField b 9 4) (bitField b 4 5) (bitField b 0 4)

/-- The crosspoint of a received response word that passes the tests of R174, or none: the word is discarded. -/
def receivedCrosspoint (fail brk : Bool) (r : Response) : Option Crosspoint :=
  if frameOk (responseWord fail brk r) r then bodyCrosspoint r.body else none

end Sys2Proof.Machine
end

