-- ==== Sys2Proof/Machine/Formats.lean ====
section
/-!
DEFINITION. The layouts of every word the 716 writes, serves or sends (spec/11).
-/

namespace Sys2Proof.Machine

/-! ## Order slot (section 11.1, section 8.5) -/

/-- The code of a result (section 8.5). -/
def ResultCode.code : ResultCode → Nat
  | .done => 1
  | .connected => 2
  | .callerBusy => 3
  | .calledBusy => 4
  | .unobtainable => 5
  | .barred => 6
  | .congestion => 7
  | .pathFault => 8
  | .billingFull => 9
  | .released => 10
  | .notActive => 11
  | .notCoin => 12
  | .clamped => 13
  | .lineBusy => 14
  | .pendingPulses => 15
  | .notSpare => 16
  | .badArgument => 17
  | .badOrder => 18
  | .tableFull => 19
  | .badLine => 20

/-- The circuit field of a result: 63 for none (R150). -/
def circuitField : Option Circuit → Nat
  | some x => x.val
  | none => 63

/-- The result word: bit 15 set, the code in bits 10 to 14, the circuit in bits 0 to 5 (section 11.1). -/
def resultWord (r : Result) : Word := BitVec.ofNat 16 (32768 + 1024 * r.code.code + circuitField r.circuit)

/-- The kind field of an order word: bits 0 to 4 (section 11.1). -/
def orderKind (w : Word) : BitVec 5 := w.extractLsb' 0 5

/-! ## Codes (section 11.2) -/

/-- The code of a kind. -/
def CallKind.code : CallKind → Nat
  | .localCall => 0
  | .outgoing => 1
  | .incoming => 2

/-- The code of a clear cause. -/
def ClearCause.code : ClearCause → Nat
  | .callerClear => 1
  | .calledClear => 2
  | .order => 3
  | .credit => 4
  | .pathFault => 5

/-- The code of a meter fault. -/
def MeterFault.code : MeterFault → Nat
  | .none => 0
  | .parity => 1
  | .corrupt => 2
  | .saturated => 3

/-- The code of a crosspoint fault cause. -/
def FaultCause.code : FaultCause → Nat
  | .fail => 0
  | .makeTimeout => 1
  | .breakTimeout => 2

/-- The state code of the CALLS view (section 2.2). -/
def CallState.code : CallState → Nat
  | .free => 0
  | .guarded => 1
  | .seized => 2
  | .reserved => 3
  | .setting => 4
  | .ringing => 5
  | .answered => 6
  | .clearing => 7
  | .closing => 8

/-! ## Meter record (section 11.3, R96) -/

/-- Word 0 of a meter record. -/
def meterWord0 (count : Nat) : Word := BitVec.ofNat 16 (count % 65536)

/-- Word 1 of a meter record: wrap count in bits 8 to 15, high part in bits 0 to 3. -/
def meterWord1 (count wrap : Nat) : Word := BitVec.ofNat 16 (256 * wrap + count / 65536)

/-- The count of a meter record. -/
def meterCount (w0 w1 : Word) : Nat := w0.toNat + 65536 * bitField w1 0 4

/-- The wrap count of a meter record. -/
def meterWrap (w1 : Word) : Nat := bitField w1 8 8

/-- A meter record is valid: count at most 999,999 and the four unused bits 0 (R96). -/
def meterValid (w0 w1 : Word) : Bool := decide (meterCount w0 w1 < Config.meterModulus) && bitField w1 4 4 == 0

/-! ## Ticket (section 11.4) -/

/-- A flag bit. -/
def flagBit (b : Bool) (i : Nat) : Nat := if b then 2 ^ i else 0

/-- The number of the called line or junction; 0 if absent. -/
def calledNumber : Option Called → Nat
  | some (.line l) => l.val
  | some (.junction n) => n.val
  | none => 0

/-- The flags in bits 0 to 7 of ticket word 2. -/
def TicketBody.flags (t : TicketBody) : Nat :=
  flagBit t.timeUnset 0 + flagBit t.longCall 1 + flagBit t.bandChanged 2 + flagBit t.calledClearSeen 3
    + flagBit t.payToneSent 4 + flagBit t.creditAdded 5 + flagBit t.coin 6 + flagBit t.detailed 7

/-- The code of a cause field; 0 if absent. -/
def causeField : Option ClearCause → Nat
  | some c => c.code
  | none => 0

/-- The eight words of a ticket, word 0 first. -/
def Ticket.words (t : Ticket) : List Word :=
  [BitVec.ofNat 16 t.seq,
   BitVec.ofNat 16 (t.body.circuit.val + 64 * (circuitKind t.body.circuit).code + flagBit t.body.reAnswer 7
     + 256 * t.body.credit),
   BitVec.ofNat 16 (t.body.flags + 256 * t.body.bandAtAnswer.val + 1024 * causeField t.body.cause
     + 8192 * t.body.distBand.val),
   BitVec.ofNat 16 ((match t.body.calling with | some l => l.val | none => 0) + 512 * t.body.owed),
   BitVec.ofNat 16 (calledNumber t.body.called + 1024 * t.body.answerSecond),
   BitVec.ofNat 16 t.body.answerMinute,
   BitVec.ofNat 16 t.body.duration,
   BitVec.ofNat 16 t.body.paid]

/-! ## Reports (section 11.5) -/

/-- The kind code of a report (section 10.1). -/
def Report.code : Report → Nat
  | .answer _ _ => 1
  | .clear _ _ => 2
  | .seize _ => 3
  | .abandon _ => 4
  | .calledClear _ => 5
  | .reAnswer _ => 6
  | .payTone _ _ => 7
  | .crosspointFault _ _ => 8
  | .linkOut _ _ => 9
  | .meterFault _ _ => 10
  | .ticketIndexError _ => 11
  | .bandChange _ => 12

/-- The subject of a CROSSPOINT FAULT: stage in bit 8, switch in bits 0 to 3. -/
def crosspointSubject : Crosspoint → Nat
  | .a g _ _ => g.val
  | .b k _ _ => 256 + k.val

/-- The coordinates of a CROSSPOINT FAULT detail: stage A p in bits 0 to 4, k in 8 to 11; stage B g in bits 0 to 3, j
in 8 to 10. -/
def crosspointDetail : Crosspoint → Nat
  | .a _ p k => p.val + 256 * k.val
  | .b _ g j => g.val + 256 * j.val

/-- The subject field of a report. -/
def Report.subject : Report → Nat
  | .answer x _ => x.val
  | .clear x _ => x.val
  | .seize x => x.val
  | .abandon x => x.val
  | .calledClear x => x.val
  | .reAnswer x => x.val
  | .payTone x _ => x.val
  | .crosspointFault xp _ => crosspointSubject xp
  | .linkOut g _ => g.val
  | .meterFault l _ => l.val
  | .ticketIndexError _ => 0
  | .bandChange _ => 0

/-- Word A of a report: kind in bits 12 to 15, subject in bits 0 to 8. -/
def Report.wordA (r : Report) : Word := BitVec.ofNat 16 (4096 * r.code + r.subject)

/-- Word B of a report: its detail. -/
def Report.wordB : Report → Word
  | .answer _ b => BitVec.ofNat 16 b.val
  | .clear _ c => BitVec.ofNat 16 c.code
  | .seize _ => 0
  | .abandon _ => 0
  | .calledClear _ => 0
  | .reAnswer _ => 0
  | .payTone _ owed => BitVec.ofNat 16 owed
  | .crosspointFault xp c => BitVec.ofNat 16 (crosspointDetail xp + 4096 * c.code)
  | .linkOut _ k => BitVec.ofNat 16 k.val
  | .meterFault _ f => BitVec.ofNat 16 f.code
  | .ticketIndexError v => v
  | .bandChange b => BitVec.ofNat 16 b.val

/-! ## CALLS view (section 11.7, R172) -/

/-- The band at answer of a record: 0 while no stamp is present (R172). -/
def CallRecord.bandAtAnswer (r : CallRecord) : TimeBand :=
  match r.stamp with
  | some st => st.band
  | none => 0

/-- Word w of the call view of circuit x (R172). -/
def State.callView (s : State) (x : Circuit) (w : Nat) : Word :=
  let r := s.record x
  match w with
  | 0 => BitVec.ofNat 16 (r.state.code + 16 * (circuitKind x).code + flagBit r.coin 6 + flagBit r.ticket 7
      + flagBit r.calledClear.isSome 8 + flagBit r.grace.isSome 9 + flagBit (!s.circuitInService[x]) 10
      + 4096 * r.bandAtAnswer.val)
  | 1 => match r.calling with | some l => BitVec.ofNat 16 l.val | none => 0xFFFF
  | 2 => match r.called with | some c => BitVec.ofNat 16 (calledNumber (some c)) | none => 0xFFFF
  | _ => BitVec.ofNat 16 r.paid

/-- The word served at an offset of the CALLS region: offsets 224 to 255 read 0 (R160). -/
def State.callsWord (s : State) (off : Nat) : Word :=
  if h : off / 4 < 56 then s.callView ⟨off / 4, h⟩ (off % 4) else 0

/-! ## Matrix Port words (section 11.8) -/

/-- The crosspoint field with the stage in bit 13. -/
def crosspointField : Crosspoint → Nat
  | .a g p k => k.val + 16 * p.val + 512 * g.val
  | .b k g j => 8192 + j.val + 16 * g.val + 256 * k.val

/-- The body, with right parity and stop bit, that a driver board sends for a crosspoint in a word of these top bits. -/
def boardResponse (fail brk : Bool) (xp : Crosspoint) : Response :=
  let body := BitVec.ofNat 14 (crosspointField xp)
  { body := body, parity := (onesCount (responseWord fail brk { body := body, parity := false, stop := true })) % 2 == 0,
    stop := true }

/-- The word of a command on MXO. -/
def PortCommand.word : PortCommand → Word
  | .makeCmd _ xp => BitVec.ofNat 16 (crosspointField xp)
  | .breakCmd _ xp => BitVec.ofNat 16 (16384 + crosspointField xp)
  | .clearAll => 0x8000
  | .payTone x => BitVec.ofNat 16 (49152 + x.val)

/-- The word on MXO, if a command is being sent. -/
def State.mxoWord (s : State) : Option Word := s.onWire.map PortCommand.word

/-- The 19 bits of a word's frame: start bit low, the word from bit 0, odd parity, stop bit high (R174). -/
def frameBits (w : Word) : List Bool := false :: (List.range 16).map w.getLsbD ++ [onesCount w % 2 == 0, true]

/-- The level on MXO: the bit of the frame being sent, high when idle (R174). -/
def State.mxoLevel (s : State) : Bool :=
  match s.mxoWord with
  | some w => (frameBits w).getD ((Config.framePeriods - s.wireLeft) / Config.bitPeriods) true
  | none => true

end Sys2Proof.Machine
end

