-- ==== Sys2Proof/Machine/Flags.lean ====
section
/-!
DEFINITION. The indications of the STATUS cell, the stickies, and the served cells (spec/10; section 11.6; R87, R138,
R139, R147, R160, R169 to R171).
-/

namespace Sys2Proof.Machine

/-- Orders almost full: the order queue holds at least the threshold (R147). -/
def State.ordersAlmostFull (s : State) : Bool := decide (s.threshold ≤ s.orderQueue.length)

/-- The ticket hold queue is full: billing full (R130, R139). -/
def State.billingFull (s : State) : Bool := decide (Config.holdQueueCapacity ≤ s.holdQueue.length)

/-- The STATUS word (R171, section 11.6). -/
def State.statusWord (s : State) : Word :=
  BitVec.ofNat 16 (flagBit s.isReady 0 + flagBit s.configFault 1 + flagBit s.ordersAlmostFull 2
    + flagBit s.attnActive 3 + flagBit s.reportsLost 4 + flagBit s.ringFull 5 + flagBit s.billingFull 6
    + flagBit s.timeUnset 7 + 256 * s.band.val + flagBit s.memoryError 10 + flagBit s.guardedWrite 11)

/-- A STATUS read clears the three stickies, after the value has been formed (R171). -/
def State.clearStickies (s : State) : State :=
  { s with reportsLost := false, memoryError := false, guardedWrite := false }

/-- A REPORT A read pops the head report into the latch, or empties the latch (R169). -/
def State.popReport (s : State) : State :=
  match s.reports with
  | r :: rest => { s with reports := rest, latch := some r }
  | [] => { s with latch := none }

/-- The word a REPORT A read returns (R169). -/
def State.reportAWord (s : State) : Word :=
  match s.reports with
  | r :: _ => r.wordA
  | [] => 0

/-- The word a REPORT B read returns (R169). -/
def State.reportBWord (s : State) : Word :=
  match s.latch with
  | some r => r.wordB
  | none => 0

/-- The word served at an offset of the CELLS region (section 11.6, R160). -/
def State.cellWord (s : State) (off : Nat) : Word :=
  match off with
  | 0 => s.statusWord
  | 1 => s.reportAWord
  | 2 => s.reportBWord
  | 3 => BitVec.ofNat 16 (s.writeIndex + flagBit s.ringFull 15)
  | 4 => BitVec.ofNat 16 s.readIndex
  | 5 => BitVec.ofNat 16 s.weekMinute
  | 6 => BitVec.ofNat 16 (s.second + 256 * s.band.val)
  | 7 => BitVec.ofNat 16 s.holdQueue.length
  | _ => 0

/-- What a read of a cell changes: STATUS clears its stickies, REPORT A pops the queue (R160). -/
def State.afterCellRead (s : State) (off : Nat) : State :=
  match off with
  | 0 => s.clearStickies
  | 1 => s.popReport
  | _ => s

/-- Set the guarded-write sticky (R161). -/
def State.setGuardedWrite (s : State) : State := { s with guardedWrite := true }

/-- Set the memory-error sticky (R166). -/
def State.setMemoryError (s : State) : State := { s with memoryError := true }

end Sys2Proof.Machine
end

