-- ==== Sys2Proof/Machine/Poster.lean ====
section
/-!
DEFINITION. Charging pulses to lines and the meter poster (spec/05, sections 5.2 to 5.6 and 5.8).
-/

namespace Sys2Proof.Machine

/-! ## Charging a line (R93, R94) -/

/-- Charge a pulse to a line: the pending count rises, or at 65,535 the pulse is lost and the fault becomes SATURATED,
with a report unless it was SATURATED already (R93, R94). -/
def State.chargeLine (s : State) (l : Line) : State :=
  let e := s.line l
  if e.pulses < Config.countMax then s.setLine l { e with pulses := e.pulses + 1 }
  else if e.fault = .saturated then s
  else (s.setLine l { e with fault := .saturated }).report (.meterFault l .saturated)

/-! ## Choosing a line (R98) -/

/-- A line's entry lets it be posted: pulses are pending, and its meter fault is none or SATURATED (R98). -/
def LineEntry.postable (e : LineEntry) : Bool :=
  decide (e.pulses ≠ 0) && (decide (e.fault = .none) || decide (e.fault = .saturated))

/-- A line is eligible for posting: its entry lets it be posted, and the read pair does not stand on it (R98). -/
def State.eligible (s : State) (l : Line) : Bool := (s.line l).postable && decide (s.readPair ≠ some l)

/-- The lines from the pointer upward, 511 followed by 0 (R98). -/
def State.postOrder (s : State) : List Line := (List.finRange 512).map fun i => s.postPointer + i

/-- At least one line is eligible. -/
def State.anyEligible (s : State) : Bool :=
  (s.lines.toList.zip (List.finRange 512)).any fun e => e.1.postable && decide (s.readPair ≠ some e.2)

/-- Start a posting of a line with p taken as its pending count at this moment (R98, R165). -/
def State.startPosting (s : State) (l : Line) (att : Attempt) : State :=
  { s with owner := .posting { line := l, pulses := (s.line l).pulses, attempt := att },
           accessLeft := 4 * Config.accessPeriods }

/-- The retry line, if it is eligible. -/
def State.retryChoice (s : State) : Option Line := s.retryLine.filter s.eligible

/-- The poster's choice in the event of a grant; with no eligible line the port is handed back unused (R98). -/
def State.choosePosting (s : State) : State :=
  match s.retryChoice with
  | some l => { s with retryLine := none }.startPosting l .retry
  | none =>
    match s.postOrder.find? s.eligible with
    | some l => { s with postPointer := l + 1 }.startPosting l .first
    | none => s

/-- A SET METER sequence waits and its line has no open read pair (R108). -/
def State.setMeterStartable (s : State) : Bool :=
  match s.setMeterJob with
  | some j => decide (s.readPair ≠ some j.line)
  | none => false

/-- The Meter Engine takes its grant: SET METER if it can start, else a posting, else nothing (R163). -/
def State.grantMeter (s : State) : State :=
  let s := { s with meterRequest := false }
  if s.setMeterStartable then { s with owner := .setMeter, accessLeft := 2 * Config.accessPeriods }
  else s.choosePosting

/-! ## The ends of a posting (R99 to R105) -/

/-- The lock is released: the port has no owner (R165). -/
def State.freePort (s : State) : State := { s with owner := .none, accessLeft := 0 }

/-- The new count of a posting (R99). -/
def postedCount (c p : Nat) : Nat := if c + p < Config.meterModulus then c + p else c + p - Config.meterModulus

/-- The new wrap count of a posting (R99). -/
def postedWrap (c p w : Nat) : Nat := if c + p < Config.meterModulus then w else if w = 255 then 255 else w + 1

/-- The two words of a line's meter record. -/
def State.meterWords (s : State) (l : Line) : Word × Word :=
  (s.readMem (s.map.meterAddr l 0), s.readMem (s.map.meterAddr l 1))

/-- Write the two words of a line's meter record. -/
def State.writeMeter (s : State) (l : Line) (count wrap : Nat) : State :=
  (s.writeMem (s.map.meterAddr l 0) (meterWord0 count)).writeMem (s.map.meterAddr l 1) (meterWord1 count wrap)

/-- The meter record of a line reads valid (R96). -/
def State.meterReadsValid (s : State) (l : Line) : Bool := meterValid (s.meterWords l).1 (s.meterWords l).2

/-- A posting of a valid record: the new values are written and p leaves the pending count (R99, R100). -/
def State.postingDone (s : State) (p : Posting) : State :=
  let c := meterCount (s.meterWords p.line).1 (s.meterWords p.line).2
  let w := meterWrap (s.meterWords p.line).2
  ((s.writeMeter p.line (postedCount c p.pulses) (postedWrap c p.pulses w)).modifyLine p.line fun e =>
    { e with pulses := e.pulses - p.pulses }).freePort

/-- A fault found while posting: none takes it with a report; SATURATED stays, is reported, and loses the pending count;
another fault stands (R103, R104, R105). -/
def State.postingFault (s : State) (l : Line) (found : MeterFault) : State :=
  let e := s.line l
  match e.fault with
  | .none => (s.setLine l { e with fault := found }).report (.meterFault l found)
  | .saturated => (s.setLine l { e with pulses := 0 }).report (.meterFault l found)
  | .parity => s
  | .corrupt => s

/-- A posting that found the record corrupt: no write (R103, R105). -/
def State.postingCorrupt (s : State) (p : Posting) : State := (s.postingFault p.line .corrupt).freePort

/-- A posting answered with MPERR: a first attempt makes the line the retry line, a retry finds the fault PARITY (R102,
R104, R105). -/
def State.postingParity (s : State) (p : Posting) : State :=
  match p.attempt with
  | .first => { s with retryLine := some p.line }.freePort
  | .retry => (s.postingFault p.line .parity).freePort

/-! ## SET METER's sequence (R109) -/

/-- The second write of a SET METER completes: record written, fault none, DONE handed over (R108, R109). -/
def State.setMeterDone (s : State) : State :=
  match s.setMeterJob with
  | some j =>
    ((({ s with setMeterJob := none }.writeMeter j.line j.value 0).modifyLine j.line fun e =>
      { e with fault := .none }).handResult j.slot .done none).freePort
  | none => s.freePort

end Sys2Proof.Machine
end

