-- ==== Sys2Proof/Machine/TicketUnit.lean ====
section
/-!
DEFINITION. The Ticket Unit (spec/07): composing a ticket, the hold queue, the CLOSING waiters, the ring, and the read
index.
-/

namespace Sys2Proof.Machine

/-! ## Entering GUARD (R23, R49) -/

/-- A record entering GUARD from CLEARING or CLOSING: every call field cleared, the guard timer at 300 ms. -/
def State.enterGuard (s : State) (x : Circuit) : State :=
  s.setRecord x { CallRecord.blank .guarded with guardTimer := some Config.releaseGuardPeriods }

/-! ## Composing (R126, R127) -/

/-- The duration field: ticks div 10, at most 65,535 (R127). -/
def ticketSeconds (ticks : Nat) : Nat := if 65535 < ticks / 10 then 65535 else ticks / 10

/-- The long-call flag: the quotient exceeds 65,535 (R127). -/
def ticketLong (ticks : Nat) : Bool := decide (65535 < ticks / 10)

/-- The ticket composed from a record at the completion of its break job (R126). -/
def composeTicket (x : Circuit) (r : CallRecord) : TicketBody :=
  { circuit := x, cause := r.cause, timeUnset := r.timeUnsetAtAnswer, longCall := ticketLong r.duration,
    bandChanged := r.bandChanged, calledClearSeen := r.calledClearSeen, reAnswer := r.reAnswer,
    payToneSent := r.payToneSent, creditAdded := r.creditAdded, coin := r.coin, detailed := r.detailed,
    calling := r.calling, distBand := r.distBand, called := r.called, bandAtAnswer := r.bandAtAnswer,
    answerMinute := ((r.stamp.bind fun st => st.time).getD (0, 0)).1,
    answerSecond := ((r.stamp.bind fun st => st.time).getD (0, 0)).2,
    duration := ticketSeconds r.duration, paid := r.paid, credit := r.credit, owed := r.owed }

/-! ## The hold queue and the waiters (R128 to R131) -/

/-- A ticket enters the hold queue at the tail and takes its sequence number (R129). -/
def State.enterHoldQueue (s : State) (t : TicketBody) : State :=
  { s with holdQueue := s.holdQueue ++ [{ seq := s.seqCounter, body := t }],
           seqCounter := (s.seqCounter + 1) % 65536 }

/-- A record entering CLOSING: its lines and path are made absent, the other fields are kept (R23), and it joins the
waiters with its ticket (R128, R131). -/
def State.enterClosing (s : State) (x : Circuit) (t : TicketBody) : State :=
  { s.modifyRecord x fun r => { r with state := .closing, calling := none, called := none, path := [] } with
    closingWaiters := s.closingWaiters ++ [(x, t)] }

/-- Offer a ticket to the hold queue: with a place it enters and the record goes to GUARD, else the record enters
CLOSING (R37, R128). -/
def State.offerTicket (s : State) (x : Circuit) (t : TicketBody) : State :=
  if s.holdQueue.length < Config.holdQueueCapacity then (s.enterHoldQueue t).enterGuard x else s.enterClosing x t

/-- The oldest CLOSING waiter is admitted to the freed place (R131). -/
def State.admitWaiter (s : State) : State :=
  match s.closingWaiters with
  | (x, t) :: rest => ({ s with closingWaiters := rest }.enterHoldQueue t).enterGuard x
  | [] => s

/-! ## The ring (R132 to R137) -/

/-- The unread count (R133). -/
def State.unreadCount (s : State) : Nat :=
  if s.ringFull then s.map.ringSize
  else (s.writeIndex + s.map.ringSize - s.readIndex) % s.map.ringSize

/-- Write a list of words at ascending addresses. -/
def State.writeWords (s : State) (addr : Nat → Word) : Nat → List Word → State
  | _, [] => s
  | i, w :: rest => State.writeWords (s.writeMem (addr i) w) addr (i + 1) rest

/-- The end of a ticket burst: the eight words stand in slot W, W advances, full is set if W meets Rd, the head leaves,
the oldest waiter is admitted (R135). -/
def State.burstEnd (s : State) : State :=
  match s.holdQueue with
  | t :: rest =>
    let s := s.writeWords (s.map.ticketAddr s.writeIndex) 0 t.words
    let w := (s.writeIndex + 1) % s.map.ringSize
    { s with writeIndex := w, ringFull := s.ringFull || decide (w = s.readIndex), holdQueue := rest, burst := .idle,
             owner := .none, accessLeft := 0 }.admitWaiter
  | [] => { s with burst := .idle, owner := .none, accessLeft := 0 }

/-- The Ticket Unit judges a value written to the read-index cell (R136). -/
def State.judgeReadIndex (s : State) (v : Word) : State :=
  let n := s.map.ringSize
  let a := (v.toNat + n - s.readIndex) % n
  if n ≤ v.toNat then s.report (.ticketIndexError v)
  else if a = 0 then { s with ringFull := false }
  else if a ≤ s.unreadCount then { s with readIndex := v.toNat, ringFull := false }
  else s.report (.ticketIndexError v)

end Sys2Proof.Machine
end

