-- ==== Sys2Proof/Machine/Port.lean ====
section
/-!
DEFINITION. The Call Store Path (spec/09): the treatment of processor cycles, the configuration phase, the arbiter of
the memory port, and the commands that are processor cycles.

From its grant to its end a cycle owns the port (R162). A cycle that is passed to memory ends when memory completes its access: in the
event of its command, if the command says so and the grant falls in it, and else in a later one (assumption log 7). A cycle that finds
the port owned waits in `State.cycles`, later cycles of the processor behind it (assumption log 8).
-/

namespace Sys2Proof.Machine

/-! ## Ends of cycles (R162, R106) -/

/-- The cycle at the head ends: its answer is given, and the read pair closes, or stands on the line whose word 0 this
very cycle read (R106). -/
def State.endCycle (s : State) (e : CycleEnd) (pair : Option Line) : State :=
  { s with ends := s.ends ++ [e], cycles := s.cycles.tail, readPair := pair, stretch := .none }

/-- A read passed to memory: PRDY with the word, or PBERR and the memory-error sticky on MPERR (R162, R166). -/
def State.passRead (s : State) (a : Word) (mperr : Bool) (pair : Option Line) : State :=
  if mperr then s.setMemoryError.endCycle .pberr pair else s.endCycle (.prdyWord (s.readMem a)) pair

/-- A write passed to memory: PRDY (R162). -/
def State.passWrite (s : State) (a v : Word) : State := (s.writeMem a v).endCycle .prdy none

/-- A guarded or refused write: PBERR, not passed, guarded-write sticky set (R161, R144). -/
def State.refuseWrite (s : State) : State := s.setGuardedWrite.endCycle .pberr none

/-! ## The configuration phase (R157, R158) -/

/-- Install a map and threshold: the phase becomes READY (R156, R158). -/
def State.install (s : State) (m : RegionMap) (threshold : Nat) (fault : Bool) : State :=
  { s with map := m, threshold := threshold, configFault := fault, phase := .ready }

/-- The preset layout (R156), with the config fault as given. -/
def State.installPreset (s : State) (fault : Bool) : State := s.install RegionMap.preset 6 fault

/-- Take the next configuration word; with the sixth the set is checked (R157, R158). -/
def State.takeConfigWord (s : State) (taken : List Word) (v : Word) : State :=
  match taken ++ [v] with
  | [o, ce, ca, m, t, p] =>
    if configValid (configMap o ce ca m t p) (configThreshold p) then
      s.install (configMap o ce ca m t p) (configThreshold p) s.configFault
    else s.installPreset true
  | more => { s with phase := .loading more }

/-! ## Order slots on the bus (R143, R144) -/

/-- Capture an argument word into the staging copy of an IDLE slot (R143). -/
def State.capture (s : State) (i : OrderSlot) (word : Nat) (v : Word) : State :=
  if (s.slot i).state = .idle then
    s.modifySlot i fun e =>
      match word with
      | 0 => { e with w0 := v }
      | 1 => { e with w1 := v }
      | _ => { e with w2 := v }
  else s

/-- The order queue has a place (R144). -/
def State.orderRoom (s : State) : Bool := decide (s.orderQueue.length < Config.orderQueueCapacity)

/-- A word-3 write is judged (R144): with bit 15 set it is passed; to a busy slot it is refused; to an IDLE slot it is
passed to memory (and completes with ORDER_TAKEN), or stretched at a full queue (R146). -/
def State.judgeOrderWord (s : State) (i : OrderSlot) (a v : Word) : State :=
  if v.getLsbD 15 then s.passWrite a v
  else if (s.slot i).state ≠ .idle then s.refuseWrite
  else if s.orderRoom then { s with owner := .processor, accessLeft := Config.accessPeriods, stretch := .none }
  else { s with stretch := .held Config.stretchPeriods }

/-! ## Treatment of a granted cycle (R157, R159, R160) -/

/-- The line whose read pair a read at a METER offset opens: the line of an even offset (R106). -/
def meterPair (off : Nat) : Option Line := if off % 2 = 0 then some (Fin.ofNat 512 (off / 2)) else none

/-- A read in the READY phase (R159, R160, R106). -/
def State.readyRead (s : State) (a : Word) (mperr : Bool) : State :=
  match s.map.region a with
  | .outside => s.passRead a mperr none
  | .order _ => s.passRead a mperr none
  | .cells off => (s.afterCellRead off).endCycle (.prdyWord (s.cellWord off)) none
  | .calls off => s.endCycle (.prdyWord (s.callsWord off)) none
  | .meter off => s.passRead a mperr (meterPair off)
  | .ticket _ => s.passRead a mperr none

/-- A write in the READY phase (R159, R161, R136, R143, R144). -/
def State.readyWrite (s : State) (a v : Word) : State :=
  match s.map.region a with
  | .outside => s.passWrite a v
  | .order off =>
    if off % 4 = 3 then s.judgeOrderWord (offsetSlot off) a v
    else (s.passWrite a v).capture (offsetSlot off) (off % 4) v
  | .cells off => if off = 4 then (s.passWrite a v).judgeReadIndex v else s.passWrite a v
  | .calls _ => s.refuseWrite
  | .meter _ => s.refuseWrite
  | .ticket _ => s.refuseWrite

/-- The processor's cycle at the head is granted and treated by phase and region (R157, R159, R162). -/
def State.performCycle (s : State) (c : Cycle) : State :=
  match s.phase with
  | .held => s.endCycle .pberr none
  | .loading taken =>
    match c with
    | .read a mperr => s.passRead a mperr none
    | .write _ v => (s.takeConfigWord taken v).endCycle .prdy none
  | .ready =>
    match c with
    | .read a mperr => s.readyRead a mperr
    | .write a v => s.readyWrite a v

/-- The treatment of a cycle passes it to memory: a read in LOADING, and in READY every access but a served read, a guarded write
and an order word with bit 15 clear (R157, R159). -/
def State.isPassed (s : State) (c : Cycle) : Bool :=
  match s.phase with
  | .held => false
  | .loading _ =>
    match c with
    | .read _ _ => true
    | .write _ _ => false
  | .ready =>
    match c with
    | .read a _ =>
      match s.map.region a with
      | .outside => true
      | .order _ => true
      | .cells _ => false
      | .calls _ => false
      | .meter _ => true
      | .ticket _ => true
    | .write a v =>
      match s.map.region a with
      | .outside => true
      | .order off => off % 4 ≠ 3 || v.getLsbD 15
      | .cells _ => true
      | .calls _ => false
      | .meter _ => false
      | .ticket _ => false

/-- The line whose read pair the grant of a cycle opens: in READY, a read of word 0 of its meter record (R106). -/
def State.opensPair (s : State) (c : Cycle) : Option Line :=
  match c with
  | .read a _ =>
    if s.isReady then
      match s.map.region a with
      | .meter off => meterPair off
      | .outside => none
      | .order _ => none
      | .cells _ => none
      | .calls _ => none
      | .ticket _ => none
    else none
  | .write _ _ => none

/-- The read pair once a cycle has been granted: opened on the line whose word 0 the cycle reads, else as it was until the cycle's
end (R106; assumption log 34). -/
def State.pairGranted (s : State) (c : Cycle) : Option Line :=
  match s.opensPair c with
  | some l => some l
  | none => s.readPair

/-- The passed access that owns the port ends: its cycle is performed, and the port is given up (R162). -/
def State.passedAccessDone (s : State) : State :=
  match s.cycles with
  | c :: _ => (s.performCycle c).freePort
  | [] => s.freePort

/-! ## The arbiter (R163, R164) -/

/-- A 716 sequence of the Meter Engine owns the port; meanwhile it asks for nothing (R100, R163). -/
def State.meterRunning (s : State) : Bool :=
  match s.owner with
  | .posting _ => true
  | .setMeter => true
  | .none => false
  | .processor => false
  | .passed => false
  | .resultWrite => false
  | .ticketBurst => false

/-- The Ticket Unit asks for a burst (R134). -/
def State.raiseBurst (s : State) : State :=
  if !s.holdQueue.isEmpty && !s.ringFull && decide (s.burst = .idle) then { s with burst := .waiting } else s

/-- The Meter Engine asks, when a SET METER sequence is startable or a line is eligible (R98, R108, R163). -/
def State.raiseMeter (s : State) : State :=
  if !s.meterRunning && (s.setMeterStartable || s.anyEligible) then { s with meterRequest := true } else s

/-- The blocks raise their requests; in the LOADING phase the 716 starts no sequence (R157). -/
def State.raiseRequests (s : State) : State := if s.isReady then s.raiseBurst.raiseMeter else s

/-- A 716 request waits. -/
def State.partWaits (s : State) : Bool := !s.results.isEmpty || decide (s.burst = .waiting) || s.meterRequest

/-- A processor cycle waits for a grant: there is one, and it is not held by a stretch (R146). -/
def State.processorWaits (s : State) : Bool :=
  !s.cycles.isEmpty &&
    match s.stretch with
    | .held _ => false
    | .none => true
    | .placeKept => true

/-- The 716's first request is granted: result write, ticket burst, then the Meter Engine's; the count becomes 0 (R163,
R164). -/
def State.grantPart (s : State) : State :=
  let s := { s with grantCount := 0 }
  if !s.results.isEmpty then { s with owner := .resultWrite, accessLeft := Config.accessPeriods }
  else if s.burst = .waiting then
    { s with burst := .writing, owner := .ticketBurst, accessLeft := 8 * Config.accessPeriods }
  else s.grantMeter

/-- The processor is granted: the count rises if a 716 request waits, else it becomes 0 (R164). A cycle that is passed to memory
takes the port for one access, its read pair opened with the grant (R106), unless memory completes it in this event too (`whole`);
the others end in their grant (R162). -/
def State.grantProcessor (s : State) (whole : Bool) : State :=
  match s.cycles with
  | c :: _ =>
    let s := { s with grantCount := if s.partWaits then s.grantCount + 1 else 0 }
    if s.isPassed c && !whole then
      { s with owner := .passed, accessLeft := Config.accessPeriods, stretch := .none, readPair := s.pairGranted c }
    else s.performCycle c
  | [] => s

/-- The choice between the processor and the 716 (R163). -/
def State.processorWins (s : State) : Bool :=
  s.processorWaits && (!s.partWaits || decide (s.grantCount < Config.grantLimit))

/-- The arbiter: while the port has no owner and a request waits, one is granted. The fuel bounds the choices of one
event: each grant of the processor ends a cycle, takes the port or holds it back, and each grant of the 716 takes the
port or withdraws the Meter Engine's request. `whole` says that memory completes a passed cycle of the processor in this event. -/
def arbitrate (whole : Bool) : Nat → State → State
  | 0, s => s
  | n + 1, s =>
    let s := s.raiseRequests
    if s.owner ≠ .none then s
    else if s.processorWins then arbitrate whole n (s.grantProcessor whole)
    else if s.partWaits then arbitrate whole n s.grantPart
    else s

/-- At the end of an event that may have raised a request or freed the port, the arbiter makes its choices (R163). -/
def State.askPort (s : State) : State := arbitrate false (3 * s.cycles.length + 4) s

/-! ## Presenting a cycle (R162) -/

/-- A passed access of the processor that owns the port ends before the processor strobes its next cycle (assumption log 8). -/
def State.endPassedAccess (s : State) : State := if s.owner = .passed then s.passedAccessDone else s

/-- The processor strobes a cycle. While MRST is active it ends at once with PBERR; otherwise it is presented to the
arbiter, behind any cycle of the processor that has not ended. `later` says that memory completes it in a later event, as it does for
every cycle that is granted in one. `ends` starts afresh with each cycle presented. -/
def State.presentCycle (s : State) (c : Cycle) (later : Bool) : State :=
  if s.isHeld then { s with ends := [.pberr] }
  else
    let s := { s with ends := [] }.endPassedAccess
    arbitrate (s.cycles.isEmpty && !later) (3 * s.cycles.length + 7) { s with cycles := s.cycles ++ [c] }

/-! ## The commands that are processor cycles -/

/-- CYCLE_WHILE_MRST (R162). -/
def execCycleWhileMrst (write : Bool) (addr data : Word) (s : State) : Host.Outcome State Fault Refusal :=
  .next (s.presentCycle (if write then .write addr data else .read addr false) false)

/-- CONFIGURATION_WORD (R157). -/
def execConfigurationWord (addr value : Word) (s : State) : Host.Outcome State Fault Refusal :=
  .next (s.presentCycle (.write addr value) false)

/-- PASSED_READ (R162, R166). -/
def execPassedRead (addr : Word) (answer : ReadAnswer) (s : State) : Host.Outcome State Fault Refusal :=
  .next (s.presentCycle (.read addr answer.mperr) answer.later)

/-- PASSED_WRITE (R159). -/
def execPassedWrite (addr : Word) (data : WriteData) (s : State) : Host.Outcome State Fault Refusal :=
  .next (s.presentCycle (.write addr data.value) data.later)

/-- METER_WORD0_READ (R106). -/
def execMeterWord0Read (line : Line) (answer : ReadAnswer) (s : State) : Host.Outcome State Fault Refusal :=
  .next (s.presentCycle (.read (s.map.meterAddr line 0) answer.mperr) answer.later)

/-- GUARDED_WRITE (R161). -/
def execGuardedWrite (addr value : Word) (s : State) : Host.Outcome State Fault Refusal :=
  .next (s.presentCycle (.write addr value) false)

/-- STATUS_READ (R171). -/
def execStatusRead (s : State) : Host.Outcome State Fault Refusal :=
  .next (s.presentCycle (.read (s.map.cellAddr 0) false) false)

/-- REPORT_A_READ (R169). -/
def execReportARead (s : State) : Host.Outcome State Fault Refusal :=
  .next (s.presentCycle (.read (s.map.cellAddr 1) false) false)

/-- READ_INDEX_WRITE (R136). -/
def execReadIndexWrite (data : WriteData) (s : State) : Host.Outcome State Fault Refusal :=
  .next (s.presentCycle (.write (s.map.cellAddr 4) data.value) data.later)

/-- ARGUMENT_WORD_WRITE (R143). -/
def execArgumentWordWrite (slot : OrderSlot) (word : Fin 3) (data : WriteData) (s : State) :
    Host.Outcome State Fault Refusal :=
  .next (s.presentCycle (.write (s.map.slotAddr slot word.val) data.value) data.later)

/-- ORDER_WORD_WRITE (R144). -/
def execOrderWordWrite (slot : OrderSlot) (data : WriteData) (s : State) : Host.Outcome State Fault Refusal :=
  .next (s.presentCycle (.write (s.map.slotAddr slot 3) data.value) data.later)

/-- STRETCH_TIMER_EXPIRY (R146): the held cycle ends with PBERR, is not passed, and sets the guarded-write sticky; with
no write held there is no timer to expire (R21). -/
def State.stretchExpired (s : State) : State :=
  match s.stretch with
  | .held _ => s.refuseWrite.askPort
  | .none => s
  | .placeKept => s

/-- STRETCH_TIMER_EXPIRY (R146). -/
def execStretchTimerExpiry (s : State) : Host.Outcome State Fault Refusal := running State.stretchExpired s

end Sys2Proof.Machine
end

