-- ==== Sys2Proof/Machine/Operate.lean ====
section
/-!
DEFINITION. The Operate Controller (spec/03) with the entry of a record into CLEARING and the completion of its break
job (R36, R37): operate slots, make and break jobs, the Matrix Port, make failures and the re-hunt.
-/

namespace Sys2Proof.Machine

/-! ## Marks of a path (R54) -/

/-- Set the mark of a crosspoint of a path. -/
def markPath (p : Path) (xp : Crosspoint) (m : Mark) : Path :=
  p.map fun q => if q.xp = xp then { q with mark := m } else q

/-- Set the mark of a crosspoint of a record's path. -/
def State.markPoint (s : State) (x : Circuit) (xp : Crosspoint) (m : Mark) : State :=
  s.modifyRecord x fun r => { r with path := markPath r.path xp m }

/-- The next crosspoint to make: the first unmade in path order (R56). -/
def nextUnmade (p : Path) : Option Crosspoint := (p.find? fun q => decide (q.mark = .unmade)).map fun q => q.xp

/-- The next crosspoint to break: the last made, in reverse make order (R64). -/
def nextMade (p : Path) : Option Crosspoint := (p.reverse.find? fun q => decide (q.mark = .made)).map fun q => q.xp

/-- The crosspoint in flight on a path. -/
def inFlightPoint (p : Path) : Option Crosspoint :=
  (p.find? fun q => decide (q.mark = .inFlight)).map fun q => q.xp

/-- Issue MAKE for a crosspoint and mark it in flight (R54, R56). -/
def State.issueMake (s : State) (x : Circuit) (xp : Crosspoint) : State :=
  (s.markPoint x xp .inFlight).issue (.makeCmd x xp)

/-- Issue BREAK for a crosspoint and mark it in flight (R54, R64). -/
def State.issueBreak (s : State) (x : Circuit) (xp : Crosspoint) : State :=
  (s.markPoint x xp .inFlight).issue (.breakCmd x xp)

/-! ## Operate slots and the wait list (R51 to R53) -/

/-- A make job starts: the record is in SETTING and MAKE is issued for the first crosspoint of its path (R53, R56). -/
def State.startMakeJob (s : State) (x : Circuit) : State :=
  let s := s.modifyRecord x fun r => { r with state := .setting }
  match nextUnmade (s.record x).path with
  | some xp => s.issueMake x xp
  | none => s

/-- The free operate slots. -/
def State.freeOperateSlots (s : State) : List (Fin 4) :=
  (List.finRange 4).filter fun i => decide (s.operateSlots[i] = none)

/-- Give an operate slot to a record, or free it. -/
def State.setOperateSlot (s : State) (i : Fin 4) (x : Option Circuit) : State :=
  { s with operateSlots := s.operateSlots.set i.val x i.isLt }

/-- A slot is granted whenever one is free and the wait list is not empty: to the record at the head (R53). -/
def State.grantSlot (s : State) : State :=
  match s.freeOperateSlots, s.waitList with
  | i :: _, x :: rest => ({ s with waitList := rest }.setOperateSlot i (some x)).startMakeJob x
  | _ :: _, [] => s
  | [], _ => s

/-- The slot of a record becomes free, and is granted to the next waiter in the same event (R51, R53). -/
def State.freeSlotOf (s : State) (x : Circuit) : State :=
  { s with operateSlots := s.operateSlots.map fun o => if o = some x then none else o }.grantSlot

/-- A re-hunted record takes over the slot of the failed record (R59). -/
def State.passSlot (s : State) (x y : Circuit) : State :=
  { s with operateSlots := s.operateSlots.map fun o => if o = some x then some y else o }

/-- A reserved record joins the wait list at the tail, and is granted at once if a slot is free (R52, R53). -/
def State.joinWaitList (s : State) (x : Circuit) : State := { s with waitList := s.waitList ++ [x] }.grantSlot

/-! ## The break job and its completion (R37, R64, R66) -/

/-- The busy references of a record's lines are returned to none (R26, R34, R37). -/
def State.freeLines (s : State) (x : Circuit) : State :=
  (s.setBusy (s.record x).calling none).setBusy (calledLine (s.record x).called) none

/-- The record is ticketed and was answered: its ticket is composed (R125). -/
def CallRecord.yieldsTicket (r : CallRecord) : Bool := r.ticket && r.stamp.isSome

/-- The break job of a record has completed: its links are released, its lines freed, its path emptied, and it moves on to
GUARD, or with a ticket to GUARD or CLOSING (R37). -/
def State.breakComplete (s : State) (x : Circuit) : State :=
  let t := composeTicket x (s.record x)
  let yields := (s.record x).yieldsTicket
  let s := ((s.releaseRequest x).freeLines x).modifyRecord x fun r => { r with path := [] }
  if yields then s.offerTicket x t else s.enterGuard x

/-- The break job goes on: BREAK for the next crosspoint marked made, or completion when none is left (R64, R66). -/
def State.breakNext (s : State) (x : Circuit) : State :=
  match nextMade (s.record x).path with
  | some xp => s.issueBreak x xp
  | none => s.breakComplete x

/-! ## Entry into CLEARING (R36, R69) -/

/-- A record enters CLEARING: cause set, settle, called-clear and grace timers stopped, a PAY TONE for its circuit still
in the queue withdrawn, report CLEAR sent (R36 steps 1 to 3, R69). -/
def State.markClearing (s : State) (x : Circuit) (c : ClearCause) : State :=
  ((s.modifyRecord x fun r =>
    { r with state := .clearing, cause := some c, settle := none, calledClear := none, grace := none,
             releasePending := false }).withdraw (.payTone x)).report (.clear x c)

/-- A record enters CLEARING and its break job starts in the same event (R36, R64). -/
def State.enterClearing (s : State) (x : Circuit) (c : ClearCause) : State := (s.markClearing x c).breakNext x

/-! ## Ends of the make job (R57, R61, R63) -/

/-- Every crosspoint is made: slot freed, RINGING with its settle timer, CONNECTED handed over (R57). -/
def State.makeComplete (s : State) (x : Circuit) : State :=
  ((s.freeSlotOf x).modifyRecord x fun r =>
    { r with state := .ringing, settle := some Config.settlePeriods }).handConnectResult x .connected

/-- The connect ends with PATH FAULT (R61). -/
def State.pathFaultEnd (s : State) (x : Circuit) : State :=
  ((s.freeSlotOf x).handConnectResult x .pathFault).enterClearing x .pathFault

/-- A pending release ends the connect with RELEASED (R63). -/
def State.releaseEnd (s : State) (x : Circuit) : State :=
  ((s.freeSlotOf x).handConnectResult x .released).enterClearing x .order

/-! ## The re-hunt (R59, R60) -/

/-- The re-hunt of a failed record: the local or outgoing hunt with the failed path excluded; an incoming one fails at
once (R18, R20, R59). -/
def State.rehunt (s : State) (x : Circuit) : Option Hunted :=
  let r := s.record x
  match circuitKind x with
  | .localCall =>
    match r.calling, calledLine r.called with
    | some la, some lb => s.localHunt (failedExclusion x r.path) la lb
    | some _, none => none
    | none, _ => none
  | .outgoing =>
    match r.calling with
    | some la => s.outgoingHunt (failedExclusion x r.path) la (groupOf x)
    | none => none
  | .incoming => none

/-- The record to which a call moves: the call fields of the failed record, the new path, re-hunt used, counts 0 (R59). -/
def movedRecord (old : CallRecord) (y : Circuit) (p : Path) : CallRecord :=
  { CallRecord.blank .reserved with
    calling := old.calling
    called := if circuitKind y = .outgoing then some (.junction (junctionOf y)) else old.called
    distBand := old.distBand, coin := old.coin, detailed := old.detailed, ticket := old.ticket
    boundSlot := old.boundSlot, rehuntUsed := true, path := p }

/-- The call moves to the new record, the failed record clears with its own path, and the new make job starts in the slot
taken over (R59 steps 1 to 4, R60). -/
def State.moveCall (s : State) (x : Circuit) (h : Hunted) : State :=
  let old := s.record x
  let s := h.after.setRecord h.circuit (movedRecord old h.circuit h.path)
  let s := (s.setBusy old.calling (some h.circuit)).setBusy (calledLine old.called) (some h.circuit)
  let s := (s.setRecord x { CallRecord.blank .setting with path := old.path }).passSlot x h.circuit
  (s.enterClearing x .pathFault).startMakeJob h.circuit

/-- After a make failure, its crosspoint marked and recorded: a pending release ends the connect; else the one re-hunt is
tried; else PATH FAULT (R58). -/
def State.afterMakeFailure (s : State) (x : Circuit) : State :=
  if (s.record x).releasePending then s.releaseEnd x
  else if (s.record x).rehuntUsed then s.pathFaultEnd x
  else
    match s.rehunt x with
    | some h => s.moveCall x h
    | none => s.pathFaultEnd x

/-! ## Responses and timeouts handed to the jobs (R56, R58, R65) -/

/-- DONE to a MAKE of a record in SETTING (R56, R57, R63). -/
def State.makeDone (s : State) (x : Circuit) (xp : Crosspoint) : State :=
  if (s.record x).state ≠ .setting then s
  else
    let s := s.markPoint x xp .made
    if (s.record x).releasePending then s.releaseEnd x
    else
      match nextUnmade (s.record x).path with
      | some next => s.issueMake x next
      | none => s.makeComplete x

/-- FAIL to a MAKE of a record in SETTING: unmade, recorded with cause FAIL (R58). -/
def State.makeFailed (s : State) (x : Circuit) (xp : Crosspoint) : State :=
  if (s.record x).state ≠ .setting then s
  else ((s.markPoint x xp .unmade).recordFault xp .fail).afterMakeFailure x

/-- Timeout of a MAKE of a record in SETTING: made, recorded with cause MAKE TIMEOUT (R58). -/
def State.makeTimedOut (s : State) (x : Circuit) (xp : Crosspoint) : State :=
  if (s.record x).state ≠ .setting then s
  else ((s.markPoint x xp .made).recordFault xp .makeTimeout).afterMakeFailure x

/-- DONE to a BREAK of a record in CLEARING: unmade, and the job goes on (R65). -/
def State.breakDone (s : State) (x : Circuit) (xp : Crosspoint) : State :=
  if (s.record x).state ≠ .clearing then s else (s.markPoint x xp .unmade).breakNext x

/-- FAIL or timeout of a BREAK of a record in CLEARING: unmade, recorded with cause BREAK TIMEOUT, link out of service,
and the job goes on (R65). -/
def State.breakFaulted (s : State) (x : Circuit) (xp : Crosspoint) : State :=
  if (s.record x).state ≠ .clearing then s else ((s.markPoint x xp .unmade).recordBreakFault xp).breakNext x

/-! ## The outstanding list (R55) -/

/-- An entry of the outstanding list answers to a kind and a crosspoint. -/
def Outstanding.answers (o : Outstanding) (k : JobKind) (xp : Crosspoint) : Bool :=
  decide (o.kind = k) && decide (o.xp = xp)

/-- The outstanding entry of a kind and crosspoint. -/
def State.outstandingFor (s : State) (k : JobKind) (xp : Crosspoint) : Option Outstanding :=
  s.outstanding.find? fun o => o.answers k xp

/-- Remove the outstanding entry of a kind and crosspoint, with its timer. -/
def State.dropOutstanding (s : State) (k : JobKind) (xp : Crosspoint) : State :=
  { s with outstanding := s.outstanding.eraseP fun o => o.answers k xp }

/-- A response or a timeout is matched: with an entry, the entry is removed and its job takes the event; with none, nothing
changes (R55). -/
def State.matched (s : State) (k : JobKind) (xp : Crosspoint) (f : State → Circuit → State) : State :=
  match s.outstandingFor k xp with
  | some o => (f (s.dropOutstanding k xp) o.circuit).askPort
  | none => s

/-- A response word is received on MXI; a word that fails the tests of R174 is discarded. -/
def State.received (s : State) (fail : Bool) (k : JobKind) (r : Response)
    (f : State → Circuit → Crosspoint → State) : State :=
  match receivedCrosspoint fail (decide (k = .breakJob)) r with
  | some xp => s.matched k xp fun s x => f s x xp
  | none => s

/-! ## MXO (R54, R55, R174) -/

/-- The outstanding entry a sent command makes; CLEAR ALL and PAY TONE make none (R55). -/
def sentEntry : PortCommand → List Outstanding
  | .makeCmd x xp => [{ kind := .makeJob, xp := xp, circuit := x, left := Config.responsePeriods }]
  | .breakCmd x xp => [{ kind := .breakJob, xp := xp, circuit := x, left := Config.responsePeriods }]
  | .clearAll => []
  | .payTone _ => []

/-- The head of the transmit queue leaves it and begins on MXO (R54, R174). -/
def State.beginCommand (s : State) : State :=
  match s.txQueue with
  | c :: rest => { s with txQueue := rest, onWire := some c, wireLeft := Config.framePeriods }
  | [] => { s with onWire := none, wireLeft := 0 }

/-- The command on MXO has been sent in full: a MAKE or BREAK enters the outstanding list with its timer, and the next
queued command begins (R55). With MXO idle the head of the queue is the command sent (assumption log 16). -/
def State.commandSent (s : State) : State :=
  let s := if s.onWire.isNone then s.beginCommand else s
  match s.onWire with
  | some c => { s with outstanding := s.outstanding ++ sentEntry c }.beginCommand
  | none => s

/-! ## Commands -/

/-- COMMAND_SENT (R55). -/
def execCommandSent (s : State) : Host.Outcome State Fault Refusal := running State.commandSent s

/-- MAKE_DONE (R56). -/
def execMakeDone (resp : Response) (s : State) : Host.Outcome State Fault Refusal :=
  running (fun s => s.received false .makeJob resp State.makeDone) s

/-- MAKE_FAIL (R58). -/
def execMakeFail (resp : Response) (s : State) : Host.Outcome State Fault Refusal :=
  running (fun s => s.received true .makeJob resp State.makeFailed) s

/-- MAKE_TIMEOUT (R58). -/
def execMakeTimeout (xp : Crosspoint) (s : State) : Host.Outcome State Fault Refusal :=
  running (fun s => s.matched .makeJob xp fun s x => s.makeTimedOut x xp) s

/-- BREAK_DONE (R65). -/
def execBreakDone (resp : Response) (s : State) : Host.Outcome State Fault Refusal :=
  running (fun s => s.received false .breakJob resp State.breakDone) s

/-- BREAK_FAIL (R65). -/
def execBreakFail (resp : Response) (s : State) : Host.Outcome State Fault Refusal :=
  running (fun s => s.received true .breakJob resp State.breakFaulted) s

/-- BREAK_TIMEOUT (R65). -/
def execBreakTimeout (xp : Crosspoint) (s : State) : Host.Outcome State Fault Refusal :=
  running (fun s => s.matched .breakJob xp fun s x => s.breakFaulted x xp) s

end Sys2Proof.Machine
end

