-- ==== Sys2Proof/Machine/Metering.lean ====
section
/-!
DEFINITION. The Meter Engine's work on call records (spec/05 sections 5.1 and 5.2, spec/06): pulses, coin credit, grace,
ADD CREDIT's arithmetic and the tick at a record.
-/

namespace Sys2Proof.Machine

/-! ## Disposing of a pulse (R92, R93, R112 to R114) -/

/-- One more on a count that stays at its limit. -/
def saturatingSucc (n limit : Nat) : Nat := if n < limit then n + 1 else n

/-- Charge a pulse to the calling line of a record (R92). -/
def State.chargeCaller (s : State) (x : Circuit) : State :=
  match (s.record x).calling with
  | some l => s.chargeLine l
  | none => s

/-- An ordinary pulse: paid count, then the line (R93). -/
def State.ordinaryPulse (s : State) (x : Circuit) : State :=
  (s.modifyRecord x fun r => { r with paid := saturatingSucc r.paid Config.countMax }).chargeCaller x

/-- Grace starts: 100 ticks, PAY TONE issued, flag set, report with the owed count (R114). -/
def State.startGrace (s : State) (x : Circuit) : State :=
  let s := (s.modifyRecord x fun r => { r with grace := some Config.graceTicks }).issuePayTone x
  let s := s.modifyRecord x fun r => { r with payToneSent := true }
  s.report (.payTone x (s.record x).owed)

/-- A coin pulse with credit: credit drawn, paid, charged, and grace started if the credit is now 0 (R112). -/
def State.paidPulse (s : State) (x : Circuit) : State :=
  let s := (s.modifyRecord x fun r =>
    { r with credit := r.credit - 1, paid := saturatingSucc r.paid Config.countMax }).chargeCaller x
  if (s.record x).credit = 0 then s.startGrace x else s

/-- A coin pulse without credit: owed, not charged, and grace started unless it runs (R113). -/
def State.owedPulse (s : State) (x : Circuit) : State :=
  let s := s.modifyRecord x fun r => { r with owed := saturatingSucc r.owed Config.owedMax }
  if (s.record x).grace.isSome then s else s.startGrace x

/-- A pulse is disposed of by the coin flag and the credit (R92). -/
def State.pulse (s : State) (x : Circuit) : State :=
  if (s.record x).coin then if (s.record x).credit = 0 then s.owedPulse x else s.paidPulse x
  else s.ordinaryPulse x

/-- Several pulses, each disposed of in turn (R91). -/
def State.pulses (s : State) (x : Circuit) : Nat → State
  | 0 => s
  | n + 1 => State.pulses (s.pulse x) x n

/-! ## The tick at a record (R89, R90, R115) -/

/-- A record is metered: ANSWERED, and local or outgoing (R89). -/
def State.metered (s : State) (x : Circuit) : Bool :=
  decide ((s.record x).state = .answered) && decide (circuitKind x ≠ .incoming)

/-- The increment that a tick adds to a record (R86, R89). -/
def State.incrementFor (s : State) (x : Circuit) : Nat := (s.tariffEntry (s.record x).distBand s.band).increment

/-- The accumulator step: the increment is added; at 65,536 it is taken out and one pulse falls (R89). -/
def State.accumulate (s : State) (x : Circuit) : State :=
  let sum := (s.record x).acc + s.incrementFor x
  if Config.pulseUnit ≤ sum then
    (s.modifyRecord x fun r => { r with acc := sum - Config.pulseUnit }).pulse x
  else s.modifyRecord x fun r => { r with acc := sum }

/-- The duration advances by 1, up to its limit (R90). -/
def State.advanceDuration (s : State) (x : Circuit) : State :=
  s.modifyRecord x fun r => { r with duration := saturatingSucc r.duration Config.durationMax }

/-- Grace expires: the record enters CLEARING with cause CREDIT (R121). -/
def State.graceExpired (s : State) (x : Circuit) : State :=
  if (s.record x).state = .answered ∧ (s.record x).grace.isSome then s.enterClearing x .credit else s

/-- The grace count, if it ran before this tick's pulse, is reduced by 1, and at 0 it expires (R115 steps 2 and 3). -/
def State.countGrace (s : State) (x : Circuit) (ranBefore : Bool) : State :=
  match ranBefore, (s.record x).grace with
  | true, some n =>
    if n ≤ 1 then s.graceExpired x else s.modifyRecord x fun r => { r with grace := some (n - 1) }
  | true, none => s
  | false, _ => s

/-- A tick reaches a record (R89, R90, R115). -/
def State.tickRecord (s : State) (x : Circuit) : State :=
  if s.metered x then ((s.accumulate x).advanceDuration x).countGrace x (s.record x).grace.isSome else s

/-- A tick reaches every record, in ascending order of circuit (R73; assumption log 18). -/
def State.tickRecords (s : State) : State := (List.finRange 56).foldl State.tickRecord s

/-- GRACE_EXPIRY (R121). -/
def execGraceExpiry (circuit : Circuit) (s : State) : Host.Outcome State Fault Refusal :=
  running (fun s => (s.graceExpired circuit).askPort) s

/-! ## Adding credit (R117) -/

/-- Charge the settled pulses to the calling line, one by one (R117 step 1). -/
def State.chargeSettled (s : State) (x : Circuit) : Nat → State
  | 0 => s
  | n + 1 => State.chargeSettled (s.chargeCaller x) x n

/-- The settled count s: the smaller of the owed count and n (R117). -/
def settledCount (owed n : Nat) : Nat := min owed n

/-- ADD CREDIT exceeds the limit: the result is CLAMPED (R117 steps 2 and 5). -/
def creditClamps (r : CallRecord) (n : Nat) : Bool :=
  decide (Config.creditMax < r.credit + (n - settledCount r.owed n))

/-- The record after ADD CREDIT n: settlement, remainder, grace, flag (R117 steps 1 to 4). -/
def creditedRecord (r : CallRecord) (n : Nat) : CallRecord :=
  let settled := settledCount r.owed n
  let owed := r.owed - settled
  let credit := min Config.creditMax (r.credit + (n - settled))
  { r with owed := owed, paid := min Config.countMax (r.paid + settled), credit := credit,
           grace := if owed = 0 ∧ 0 < credit then none else r.grace, creditAdded := true }

/-- ADD CREDIT n applied to a record (R117). -/
def State.addCredit (s : State) (x : Circuit) (n : Nat) : State :=
  (s.setRecord x (creditedRecord (s.record x) n)).chargeSettled x (settledCount (s.record x).owed n)

end Sys2Proof.Machine
end

