-- ==== Sys2Proof/Machine/TimeBase.lean ====
section
/-!
DEFINITION. The Time Base (spec/04): the week clock, the calendar and the band in force, the tariff's increment, and the
metering tick.
-/

namespace Sys2Proof.Machine

/-! ## The band in force (R79 to R81) -/

/-- Of the entries with an index, the one to prefer: the later minute, and of equal minutes the higher index, which
stands later in the list (R79). -/
def laterEntry : Option CalEntry → CalEntry → Option CalEntry
  | none, e => some e
  | some b, e => if b.minute ≤ e.minute then some e else some b

/-- The valid entry with the greatest minute, the higher index winning a tie (R79). -/
def latestEntry (es : List CalEntry) : Option CalEntry := (es.filter fun e => e.valid).foldl laterEntry none

/-- The band in force as evaluated from the week minute and the calendar (R79). -/
def State.evaluatedBand (s : State) : TimeBand :=
  if s.timeUnset then 0
  else
    match latestEntry (s.calendar.toList.filter fun e => decide (e.minute ≤ s.weekMinute)) with
    | some e => e.band
    | none =>
      match latestEntry s.calendar.toList with
      | some e => e.band
      | none => 0

/-- Every ANSWERED local or outgoing record has its band-changed flag set (R81). -/
def State.flagBandChanged (s : State) : State :=
  { s with records := s.records.mapFinIdx fun i r h =>
      if s.metered ⟨i, h⟩ then { r with bandChanged := true } else r }

/-- The band change event (R81). -/
def State.bandChange (s : State) (b : TimeBand) : State := ({ s with band := b }.flagBandChanged).report (.bandChange b)

/-- The band in force is re-evaluated; a new value takes the band change event (R80). -/
def State.reevaluateBand (s : State) : State :=
  if s.evaluatedBand = s.band then s else s.bandChange s.evaluatedBand

/-! ## The week clock (R74) -/

/-- The week clock passes to the next minute, and the band in force is re-evaluated (R74, R80). -/
def State.minuteRollover (s : State) : State :=
  { s with tenths := 0, second := 0,
           weekMinute := if s.weekMinute + 1 < Config.weekMinutes then s.weekMinute + 1 else 0 }.reevaluateBand

/-- After a tick is handed over the clock advances by one tenth (R74). -/
def State.advanceClock (s : State) : State :=
  if s.tenths < 9 then { s with tenths := s.tenths + 1 }
  else if s.second < 59 then { s with tenths := 0, second := s.second + 1 }
  else s.minuteRollover

/-- The metering tick: it ends a period of the divider, is taken at the records, and then advances the week clock (R72 to
R74). -/
def State.meteringTick (s : State) : State := ({ s with tickDivider := 0 }.tickRecords).advanceClock

/-- METERING_TICK (R89). -/
def execMeteringTick (s : State) : Host.Outcome State Fault Refusal := running (fun s => s.meteringTick.askPort) s

/-- MINUTE_ROLLOVER (R74). -/
def execMinuteRollover (s : State) : Host.Outcome State Fault Refusal := running State.minuteRollover s

/-! ## The tariff (R84, R85) and the clock as orders set them (R76, R78) -/

/-- The increment derived from an interval (R85). -/
def tariffIncrement (i : Nat) : Nat := if i = 0 then 0 else (131072 + i) / (2 * i)

/-- LOAD TARIFF accepted (R84). -/
def State.loadTariff (s : State) (d : DistBand) (b : TimeBand) (initial interval : Nat) : State :=
  let e : TariffEntry := { interval := interval, initial := initial, increment := tariffIncrement interval }
  { s with tariff := s.tariff.set (tariffIndex d b).val e (tariffIndex d b).isLt }

/-- SET TIME accepted (R76). -/
def State.setTime (s : State) (minute second : Nat) : State :=
  { s with weekMinute := minute, second := second, tenths := 0, timeUnset := false }.reevaluateBand

/-- LOAD CALENDAR accepted (R78). -/
def State.loadCalendar (s : State) (i : Fin 16) (e : CalEntry) : State :=
  { s with calendar := s.calendar.set i.val e i.isLt }.reevaluateBand

end Sys2Proof.Machine
end

