-- ==== Sys2Proof/Machine/Supervision.lean ====
section
/-!
DEFINITION. The Supervision Scanner and the call record's answers, clears and timers (spec/02, sections 2.6 to 2.10).
-/

namespace Sys2Proof.Machine

/-! ## Answer (R43, R91) -/

/-- The answer of a record (R43): ANSWERED with its stamp, report ANSWER, and for a local or outgoing record the
accumulator and duration at 0 and the initial pulses. An incoming record keeps the band alone. -/
def State.answer (s : State) (x : Circuit) : State :=
  if circuitKind x = .incoming then
    (s.modifyRecord x fun r => { r with state := .answered, stamp := some { band := s.band, time := none } }).report
      (.answer x s.band)
  else
    ((s.modifyRecord x fun r =>
      { r with state := .answered, stamp := some { band := s.band, time := some (s.weekMinute, s.second) },
               timeUnsetAtAnswer := s.timeUnset, duration := 0, acc := 0 }).report (.answer x s.band)).pulses x
      (s.tariffEntry (s.record x).distBand s.band).initial

/-! ## Seizure and abandon (R47, R48, R50, R34) -/

/-- An incoming record goes to SEIZED with report SEIZE (R47). -/
def State.seize (s : State) (x : Circuit) : State :=
  (s.modifyRecord x fun r => { r with state := .seized }).report (.seize x)

/-- A record enters FREE with its call fields cleared (R23). -/
def State.enterFree (s : State) (x : Circuit) : State := s.setRecord x (CallRecord.blank .free)

/-! ## Recognised changes (R40) -/

/-- F appears (R40, R47). -/
def State.fAppeared (s : State) (x : Circuit) : State :=
  if (s.record x).state = .free ∧ circuitKind x = .incoming then s.seize x else s

/-- F disappears (R40, R44, R48). -/
def State.fDisappeared (s : State) (x : Circuit) : State :=
  match (s.record x).state with
  | .seized => (s.enterFree x).report (.abandon x)
  | .ringing => if (s.record x).settle.isSome then s else s.enterClearing x .callerClear
  | .answered => s.enterClearing x .callerClear
  | .free => s
  | .guarded => s
  | .reserved => s
  | .setting => s
  | .clearing => s
  | .closing => s

/-- B appears (R40, R43, R46). -/
def State.bAppeared (s : State) (x : Circuit) : State :=
  match (s.record x).state with
  | .ringing => if (s.record x).settle.isSome then s else s.answer x
  | .answered =>
    if (s.record x).calledClear.isSome then
      (s.modifyRecord x fun r => { r with calledClear := none, reAnswer := true }).report (.reAnswer x)
    else s
  | .free => s
  | .guarded => s
  | .seized => s
  | .reserved => s
  | .setting => s
  | .clearing => s
  | .closing => s

/-- The called-clear length of a circuit (R45). -/
def calledClearPeriods (x : Circuit) : Nat :=
  if circuitKind x = .outgoing then Config.calledClearShortPeriods else Config.calledClearLongPeriods

/-- B disappears (R40, R45). -/
def State.bDisappeared (s : State) (x : Circuit) : State :=
  if (s.record x).state = .answered then
    (s.modifyRecord x fun r =>
      { r with calledClear := some (calledClearPeriods x), calledClearSeen := true }).report (.calledClear x)
  else s

/-- A change is recognised: the filtered state takes the new value, the count is made absent, and the change is delivered
to the record of the circuit (R39, R40). -/
def State.recognise (s : State) (p : Point) (present : Bool) : State :=
  let s := s.setPoint p { present := present, count := none }
  let x := pointCircuit p
  match p.val % 2 == 0, present with
  | true, true => s.fAppeared x
  | true, false => s.fDisappeared x
  | false, true => s.bAppeared x
  | false, false => s.bDisappeared x

/-! ## Scanning (R38, R39) -/

/-- The persistence of the direction of a change (R39). -/
def persistence (toPresent : Bool) : Nat := if toPresent then Config.appearCount else Config.disappearCount

/-- The count after a scan that finds the point different from its filtered state (R39). -/
def nextCount : Option Nat → Nat
  | none => 0
  | some n => n + 1

/-- One point at a scan (R39). -/
def State.scanPoint (s : State) (raw : BitVec 112) (p : Point) : State :=
  let st := s.points[p]
  let now := raw.getLsbD p.val
  if now = st.present then s.setPoint p { st with count := none }
  else if persistence now ≤ nextCount st.count then s.recognise p now
  else s.setPoint p { st with count := some (nextCount st.count) }

/-- The end of a scan round: the levels are sampled, and every point is taken in ascending order (R38, R39, R175). -/
def State.scan (s : State) (raw : BitVec 112) : State :=
  (List.finRange 112).foldl (fun s p => s.scanPoint raw p) { s with scanPins := raw, scanDivider := 0 }

/-- The CLK periods since the start of the scan interval; its round ends as the divider comes round (R175). -/
def State.scanElapsed (s : State) : Nat := (s.scanDivider + Config.scanRoundPeriods) % Config.scanPeriods

/-- The group on SCS[3:0]: 0 while MRST is active; from the interval's start groups 0 to 13, 20 µs (81.92 CLK periods) each; 13
until the next interval (R175). -/
def State.scanSelect (s : State) : Nat := if s.isHeld then 0 else min 13 (s.scanElapsed * 100 / 8192)

/-! ## Timers of the record (R42, R46, R50) -/

/-- The settle timer expires (R42). -/
def State.settleExpired (s : State) (x : Circuit) : State :=
  if (s.record x).state = .ringing ∧ (s.record x).settle.isSome then
    let s := s.modifyRecord x fun r => { r with settle := none }
    if !s.fPresent x then s.enterClearing x .callerClear
    else if s.bPresent x then s.answer x
    else s
  else s

/-- The called-clear timer expires (R46). -/
def State.calledClearExpired (s : State) (x : Circuit) : State :=
  if (s.record x).state = .answered ∧ (s.record x).calledClear.isSome then s.enterClearing x .calledClear else s

/-- The guard timer expires: FREE, and for an incoming record with F present SEIZED (R50). -/
def State.guardExpired (s : State) (x : Circuit) : State :=
  if (s.record x).state = .guarded ∧ (s.record x).guardTimer.isSome then
    let s := s.enterFree x
    if circuitKind x = .incoming ∧ s.fPresent x then s.seize x else s
  else s

/-! ## Commands -/

/-- SCAN (R38). -/
def execScan (raw : BitVec 112) (s : State) : Host.Outcome State Fault Refusal :=
  running (fun s => (s.scan raw).askPort) s

/-- F_APPEARS (R40, R47). -/
def execFAppears (circuit : Circuit) (s : State) : Host.Outcome State Fault Refusal :=
  running (fun s => s.recognise (fPoint circuit) true) s

/-- F_DISAPPEARS (R44, R48). -/
def execFDisappears (circuit : Circuit) (s : State) : Host.Outcome State Fault Refusal :=
  running (fun s => (s.recognise (fPoint circuit) false).askPort) s

/-- B_APPEARS (R43, R46). -/
def execBAppears (circuit : Circuit) (s : State) : Host.Outcome State Fault Refusal :=
  running (fun s => (s.recognise (bPoint circuit) true).askPort) s

/-- B_DISAPPEARS (R45). -/
def execBDisappears (circuit : Circuit) (s : State) : Host.Outcome State Fault Refusal :=
  running (fun s => s.recognise (bPoint circuit) false) s

/-- SETTLE_EXPIRY (R42). -/
def execSettleExpiry (circuit : Circuit) (s : State) : Host.Outcome State Fault Refusal :=
  running (fun s => (s.settleExpired circuit).askPort) s

/-- CALLED_CLEAR_EXPIRY (R46). -/
def execCalledClearExpiry (circuit : Circuit) (s : State) : Host.Outcome State Fault Refusal :=
  running (fun s => (s.calledClearExpired circuit).askPort) s

/-- GUARD_EXPIRY (R50). -/
def execGuardExpiry (circuit : Circuit) (s : State) : Host.Outcome State Fault Refusal :=
  running (fun s => s.guardExpired circuit) s

end Sys2Proof.Machine
end

