-- ==== Sys2Proof/Machine/Orders.lean ====
section
/-!
DEFINITION. The orders (spec/08, section 8.5): what each does when the dispatcher takes it, by the rule of its owner.
-/

namespace Sys2Proof.Machine

/-- What an order comes to in the event in which the dispatcher takes it (R149). -/
inductive OrderOutcome where
  /-- Its result is handed in this event, and the dispatcher waits on the slot. -/
  | result (code : ResultCode) (circuit : Option Circuit) (s : State)
  /-- An admitted CONNECT: no result in this event, and the dispatcher is ready again. -/
  | admitted (s : State)
  /-- A SET METER that passed its checks: the result comes later, and the dispatcher waits on the slot. -/
  | later (s : State)

/-! ## Admission (R28 to R32) -/

/-- A line is busy (R26). -/
def State.lineBusy (s : State) (l : Line) : Bool := (s.line l).busy.isSome

/-- A call from a line of this class is ticketed even when local (R28, R125). -/
def classTicketed (c : LineClass) : Bool := decide (c = .coin) || decide (c = .detailed)

/-- The record of an admitted call (R31). -/
def admittedRecord (slot : OrderSlot) (calling : Option Line) (called : Called) (dist : DistBand) (cls : LineClass)
    (ticket : Bool) (p : Path) : CallRecord :=
  { CallRecord.blank .reserved with
    calling := calling, called := some called, distBand := dist, coin := decide (cls = .coin),
    detailed := decide (cls = .detailed), ticket := ticket, boundSlot := some slot, path := p }

/-- The hunt has succeeded: the record enters RESERVED, its lines become busy with the circuit, and it joins the wait list
(R26, R31, R52). -/
def admitCall (h : Hunted) (r : CallRecord) : State :=
  ((((h.after.setRecord h.circuit r).setBusy r.calling (some h.circuit)).setBusy (calledLine r.called)
    (some h.circuit))).joinWaitList h.circuit

/-- The checks that CONNECT LOCAL and CONNECT OUTGOING make of their calling line: BAD LINE, BARRED, CALLER BUSY (R28, R29);
none if it passes. -/
def State.callerRefusal (s : State) (a : Line) : Option ResultCode :=
  if (s.line a).cls = .spare then some .badLine
  else if (s.line a).cls = .incomingOnly then some .barred
  else if s.lineBusy a then some .callerBusy
  else none

/-- The checks of a called line: UNOBTAINABLE, CALLED BUSY (R28, R30); none if it passes. -/
def State.calledRefusal (s : State) (b : Line) : Option ResultCode :=
  if (s.line b).cls = .spare then some .unobtainable
  else if s.lineBusy b then some .calledBusy
  else none

/-- The checks of CONNECT LOCAL before its hunt (R28 checks 2 to 7); none if all pass. -/
def State.localRefusal (s : State) (a b : Line) : Option ResultCode :=
  ((s.callerRefusal a).or (s.calledRefusal b)).or
    (if classTicketed (s.line a).cls && s.billingFull then some .billingFull else none)

/-- The checks of CONNECT OUTGOING before its hunt (R29 checks 2 to 5); none if all pass. -/
def State.outgoingRefusal (s : State) (a : Line) : Option ResultCode :=
  (s.callerRefusal a).or (if s.billingFull then some .billingFull else none)

/-- CONNECT LOCAL (R28, R31). -/
def applyConnectLocal (slot : OrderSlot) (w0 w1 : Word) (s : State) : OrderOutcome :=
  match lineArg w0, lineArg w1 with
  | some a, some b =>
    if a = b then .result .badArgument none s
    else
      match s.localRefusal a b with
      | some code => .result code none s
      | none =>
        match s.localHunt noExclusion a b with
        | some h =>
          .admitted (admitCall h (admittedRecord slot (some a) (.line b) 0 (s.line a).cls
            (classTicketed (s.line a).cls) h.path))
        | none => .result .congestion none s
  | some _, none => .result .badArgument none s
  | none, _ => .result .badArgument none s

/-- CONNECT OUTGOING (R29, R31). -/
def applyConnectOutgoing (slot : OrderSlot) (w0 w1 w2 : Word) (s : State) : OrderOutcome :=
  match lineArg w0, groupArg w1, outgoingDistArg w2 with
  | some a, some g, some d =>
    match s.outgoingRefusal a with
    | some code => .result code none s
    | none =>
      match s.outgoingHunt noExclusion a g with
      | some h =>
        .admitted (admitCall h (admittedRecord slot (some a) (.junction (junctionOf h.circuit)) d (s.line a).cls true
          h.path))
      | none => .result .congestion none s
  | some _, some _, none => .result .badArgument none s
  | some _, none, _ => .result .badArgument none s
  | none, _, _ => .result .badArgument none s

/-- CONNECT INCOMING (R30, R31); its results name the circuit of its argument, if that is in 0 to 55 (R150). -/
def applyConnectIncoming (slot : OrderSlot) (w0 w1 : Word) (s : State) : OrderOutcome :=
  match circuitArg w0, lineArg w1 with
  | some x, some b =>
    if circuitKind x ≠ .incoming then .result .badArgument (some x) s
    else if (s.record x).state ≠ .seized then .result .notActive (some x) s
    else
      match s.calledRefusal b with
      | some code => .result code (some x) s
      | none =>
        match s.incomingHunt x b with
        | some h => .admitted (admitCall h (admittedRecord slot none (.line b) 0 .ordinary false h.path))
        | none => .result .congestion (some x) s
  | some x, none => .result .badArgument (some x) s
  | none, _ => .result .badArgument none s

/-! ## RELEASE (R33 to R35, R62) -/

/-- RELEASE in RESERVED (R34): off the wait list, links and lines freed, RELEASED for a bound connect, FREE; an incoming
record with F present goes on to SEIZED, else ABANDON is reported. -/
def State.releaseReserved (s : State) (x : Circuit) : State :=
  let s := { s with waitList := s.waitList.filter fun y => y ≠ x }
  let s := ((s.releaseRequest x).freeLines x).handConnectResult x .released
  let s := s.enterFree x
  if circuitKind x = .incoming then if s.fPresent x then s.seize x else s.report (.abandon x) else s

/-- The MAKE of the record's crosspoint in flight, if it is still in the transmit queue (R62). -/
def State.queuedMake (s : State) (x : Circuit) : Option Crosspoint :=
  (inFlightPoint (s.record x).path).filter fun xp => s.txQueue.contains (.makeCmd x xp)

/-- RELEASE in SETTING (R62): a MAKE still queued is withdrawn and the record clears with cause ORDER; a MAKE already sent
leaves the release pending. -/
def State.releaseSetting (s : State) (x : Circuit) : State :=
  match s.queuedMake x with
  | some xp =>
    let s := (s.withdraw (.makeCmd x xp)).markPoint x xp .unmade
    (((s.markClearing x .order).freeSlotOf x).handConnectResult x .released).breakNext x
  | none => s.modifyRecord x fun r => { r with releasePending := true }

/-- RELEASE (R33). -/
def applyRelease (w0 : Word) (s : State) : OrderOutcome :=
  match circuitArg w0 with
  | some x =>
    match (s.record x).state with
    | .reserved => .result .done (some x) (s.releaseReserved x)
    | .setting => .result .done (some x) (s.releaseSetting x)
    | .ringing => .result .done (some x) (s.enterClearing x .order)
    | .answered => .result .done (some x) (s.enterClearing x .order)
    | .free => .result .notActive (some x) s
    | .guarded => .result .notActive (some x) s
    | .seized => .result .notActive (some x) s
    | .clearing => .result .notActive (some x) s
    | .closing => .result .notActive (some x) s
  | none => .result .badArgument none s

/-! ## ADD CREDIT (R116, R117) -/

/-- ADD CREDIT is taken in these states (R116). -/
def creditableState : CallState → Bool
  | .reserved => true
  | .setting => true
  | .ringing => true
  | .answered => true
  | .free => false
  | .guarded => false
  | .seized => false
  | .clearing => false
  | .closing => false

/-- ADD CREDIT (R116, R117). -/
def applyAddCredit (w0 w1 : Word) (s : State) : OrderOutcome :=
  match circuitArg w0 with
  | some x =>
    if w1.toNat < 1 ∨ 255 < w1.toNat then .result .badArgument (some x) s
    else if !(s.record x).coin then .result .notCoin (some x) s
    else if !creditableState (s.record x).state then .result .notActive (some x) s
    else .result (if creditClamps (s.record x) w1.toNat then .clamped else .done) (some x) (s.addCredit x w1.toNat)
  | none => .result .badArgument none s

/-! ## Orders on lines and meters (R27, R107, R110) -/

/-- SET CLASS (R27). -/
def applySetClass (w0 w1 : Word) (s : State) : OrderOutcome :=
  match lineArg w0, classArg w1 with
  | some l, some c =>
    if s.lineBusy l then .result .lineBusy none s
    else .result .done none (s.modifyLine l fun e => { e with cls := c })
  | some _, none => .result .badArgument none s
  | none, _ => .result .badArgument none s

/-- SET METER (R107, R108). -/
def applySetMeter (slot : OrderSlot) (w0 w1 w2 : Word) (s : State) : OrderOutcome :=
  match lineArg w0 with
  | some l =>
    if !setMeterHighOk w2 || decide (999999 < setMeterValue w1 w2) then .result .badArgument none s
    else if (s.line l).cls ≠ .spare then .result .notSpare none s
    else if (s.line l).pulses ≠ 0 then .result .pendingPulses none s
    else .later { s with setMeterJob := some { slot := slot, line := l, value := setMeterValue w1 w2 } }
  | none => .result .badArgument none s

/-- CLEAR FAULT with the meter target (R110). -/
def applyClearFaultMeter (w1 : Word) (s : State) : OrderOutcome :=
  match lineArg w1 with
  | some l => .result .done none (s.modifyLine l fun e => { e with fault := .none })
  | none => .result .badArgument none s

/-! ## Orders on the Time Base (R76, R78, R84) -/

/-- SET TIME (R76). -/
def applySetTime (w0 w1 : Word) (s : State) : OrderOutcome :=
  if Config.weekMinutes ≤ w0.toNat ∨ 59 < w1.toNat then .result .badArgument none s
  else .result .done none (s.setTime w0.toNat w1.toNat)

/-- LOAD TARIFF (R84). -/
def applyLoadTariff (w0 w1 w2 : Word) (s : State) : OrderOutcome :=
  match distArg w0 with
  | some d =>
    if 6000 < w2.toNat ∨ !tariffWordOk w1 then .result .badArgument none s
    else .result .done none (s.loadTariff d (tariffWordBand w1) (tariffWordInitial w1) w2.toNat)
  | none => .result .badArgument none s

/-- LOAD CALENDAR (R78): minute 0xFFFF makes the entry invalid, and the band is then not examined. -/
def applyLoadCalendar (w0 w1 w2 : Word) (s : State) : OrderOutcome :=
  match calendarArg w0 with
  | some i =>
    if w1 = 0xFFFF then .result .done none (s.loadCalendar i { valid := false, minute := 0, band := 0 })
    else if w1.toNat < Config.weekMinutes then
      match bandArg w2 with
      | some b => .result .done none (s.loadCalendar i { valid := true, minute := w1.toNat, band := b })
      | none => .result .badArgument none s
    else .result .badArgument none s
  | none => .result .badArgument none s

/-! ## Orders on the Network Map (R10, R13, R14) -/

/-- SET FAULT (R13). -/
def applySetFault (w0 w1 w2 : Word) (s : State) : OrderOutcome :=
  match faultArg w0 w1 w2 with
  | some xp =>
    if s.faulty xp then .result .done none s
    else if s.faults.length < Config.faultTableCapacity then .result .done none (s.addFault xp)
    else .result .tableFull none s
  | none => .result .badArgument none s

/-- CLEAR FAULT with a target other than the meter (R14). -/
def applyClearFault (w0 w1 w2 : Word) (s : State) : OrderOutcome :=
  match faultArg w0 w1 w2 with
  | some xp => .result .done none { s with faults := s.faults.filter fun y => y ≠ xp }
  | none => .result .badArgument none s

/-- SERVICE with the link target (R10). -/
def applyServiceLink (w1 w2 : Word) (s : State) : OrderOutcome :=
  match lineGroupArg w1, serviceLinkArg w2 with
  | some g, some k => .result .done none (s.modifyLink (g, k) fun l => { l with inService := serviceDirection w2 })
  | some _, none => .result .badArgument none s
  | none, _ => .result .badArgument none s

/-- Set the in-service flag of a circuit (R10). -/
def State.setCircuitService (s : State) (x : Circuit) (b : Bool) : State :=
  { s with circuitInService := s.circuitInService.set x.val b x.isLt }

/-- SERVICE with the circuit target (R10). -/
def applyServiceCircuit (w1 w2 : Word) (s : State) : OrderOutcome :=
  match circuitArg w1 with
  | some x => .result .done (some x) (s.setCircuitService x (serviceDirection w2))
  | none => .result .badArgument none s

/-! ## By kind (R148, R149, section 8.5) -/

/-- The order of an entry, by its kind; CLEAR FAULT and SERVICE also by their target; a kind outside 1 to 13 is BAD ORDER
with circuit 63 (R148), an unknown SERVICE target BAD ARGUMENT (R10). -/
def applyOrder (e : OrderEntry) (s : State) : OrderOutcome :=
  match e.kind.toNat with
  | 1 => applyConnectLocal e.slot e.w0 e.w1 s
  | 2 => applyConnectOutgoing e.slot e.w0 e.w1 e.w2 s
  | 3 => applyConnectIncoming e.slot e.w0 e.w1 s
  | 4 => applyRelease e.w0 s
  | 5 => applyAddCredit e.w0 e.w1 s
  | 6 => applySetClass e.w0 e.w1 s
  | 7 => applySetMeter e.slot e.w0 e.w1 e.w2 s
  | 8 => applySetTime e.w0 e.w1 s
  | 9 => applyLoadTariff e.w0 e.w1 e.w2 s
  | 10 => applyLoadCalendar e.w0 e.w1 e.w2 s
  | 11 => applySetFault e.w0 e.w1 e.w2 s
  | 12 => if e.w0 = 2 then applyClearFaultMeter e.w1 s else applyClearFault e.w0 e.w1 e.w2 s
  | 13 =>
    if e.w0 = 0 then applyServiceLink e.w1 e.w2 s
    else if e.w0 = 1 then applyServiceCircuit e.w1 e.w2 s
    else .result .badArgument none s
  | _ => .result .badOrder none s

/-! ## The dispatcher (R142, R145, R148, R149) -/

/-- A place of the order queue frees: it is kept for a stretched write, whose timer is stopped (R146). -/
def State.keepPlace (s : State) : State :=
  match s.stretch with
  | .held _ => { s with stretch := .placeKept }
  | .none => s
  | .placeKept => s

/-- The dispatcher does an order: its slot is IN FLIGHT, and by the outcome a result is handed or comes later (R148, R149). -/
def State.dispatch (s : State) (e : OrderEntry) : State :=
  match applyOrder e (s.setSlotState e.slot .inFlight) with
  | .result code circuit s' => { s'.handResult e.slot code circuit with dispatcher := .waiting e.slot }
  | .admitted s' => s'
  | .later s' => { s' with dispatcher := .waiting e.slot }

/-- While the dispatcher is ready and the order queue is not empty it takes the head (R148). The fuel is at least the
length of the queue. -/
def runDispatcher : Nat → State → State
  | 0, s => s
  | n + 1, s =>
    match s.dispatcher, s.orderQueue with
    | .ready, e :: rest => runDispatcher n ({ s with orderQueue := rest }.keepPlace.dispatch e)
    | .ready, [] => s
    | .waiting _, _ => s

/-- The dispatcher takes what it can in this event (R148). -/
def State.runDispatch (s : State) : State := runDispatcher (s.orderQueue.length + 1) s

/-- A place of the queue is kept for the order write in progress (R145, R146). -/
def State.placeReserved (s : State) : Nat :=
  if s.owner = .processor then 1
  else
    match s.stretch with
    | .placeKept => 1
    | .none => 0
    | .held _ => 0

/-- The slot that the order write at the head of the processor's cycles names (R142). -/
def State.writeSlot (s : State) : Option OrderSlot :=
  match s.cycles with
  | .write a _ :: _ =>
    match s.map.region a with
    | .order off => some (offsetSlot off)
    | .outside => none
    | .cells _ => none
    | .calls _ => none
    | .meter _ => none
    | .ticket _ => none
  | .read _ _ :: _ => none
  | [] => none

/-- A slot is kept for the order write in progress, as the queue place is: no other order can take it (R145). -/
def State.slotReserved (s : State) (i : OrderSlot) : Bool :=
  decide (s.placeReserved = 1) && decide (s.writeSlot = some i)

/-- An order may be taken: the part is ready, the slot is IDLE and not kept for the order write in progress, and the queue has a
place that is not kept (R144, R145). -/
def State.mayTake (s : State) (e : OrderEntry) : Bool :=
  s.isReady && decide ((s.slot e.slot).state = .idle) && !s.slotReserved e.slot
    && decide (s.orderQueue.length + s.placeReserved < Config.orderQueueCapacity)

/-- The order is added at the tail of the queue and its slot becomes QUEUED (R145). -/
def State.enqueueOrder (s : State) (e : OrderEntry) : State :=
  { s with orderQueue := s.orderQueue ++ [e] }.setSlotState e.slot .queued

/-- An order is taken, and the dispatcher does what it can (R145, R148). -/
def State.takeOrder (s : State) (e : OrderEntry) : State := (s.enqueueOrder e).runDispatch

/-- An order command: the order-word write of the entry's slot completes with these words in its staging copy (assumption
log 5). An order that may not be taken changes nothing. -/
def State.giveOrder (s : State) (e : OrderEntry) : State := if s.mayTake e then (s.takeOrder e).askPort else s

/-- The entry of an order of a slot: its kind, the words given, and for a word not given the staging copy's (R145). -/
def State.orderEntry (s : State) (slot : OrderSlot) (kind : BitVec 5) (w0 w1 w2 : Option Word) : OrderEntry :=
  { slot := slot, kind := kind, w0 := w0.getD (s.slot slot).w0, w1 := w1.getD (s.slot slot).w1,
    w2 := w2.getD (s.slot slot).w2 }

/-! ## Commands -/

/-- BAD_ORDER (R148). -/
def execBadOrder (slot : OrderSlot) (kind : BitVec 5) (w0 w1 w2 : Word) (s : State) :
    Host.Outcome State Fault Refusal :=
  .next (s.giveOrder (s.orderEntry slot kind (some w0) (some w1) (some w2)))

/-- CONNECT_LOCAL (R28). -/
def execConnectLocal (slot : OrderSlot) (calling called : Word) (s : State) : Host.Outcome State Fault Refusal :=
  .next (s.giveOrder (s.orderEntry slot 1 (some calling) (some called) none))

/-- CONNECT_OUTGOING (R29). -/
def execConnectOutgoing (slot : OrderSlot) (calling group dist : Word) (s : State) :
    Host.Outcome State Fault Refusal :=
  .next (s.giveOrder (s.orderEntry slot 2 (some calling) (some group) (some dist)))

/-- CONNECT_INCOMING (R30). -/
def execConnectIncoming (slot : OrderSlot) (circuit called : Word) (s : State) : Host.Outcome State Fault Refusal :=
  .next (s.giveOrder (s.orderEntry slot 3 (some circuit) (some called) none))

/-- RELEASE (R33). -/
def execRelease (slot : OrderSlot) (circuit : Word) (s : State) : Host.Outcome State Fault Refusal :=
  .next (s.giveOrder (s.orderEntry slot 4 (some circuit) none none))

/-- ADD_CREDIT (R116, R117). -/
def execAddCredit (slot : OrderSlot) (circuit n : Word) (s : State) : Host.Outcome State Fault Refusal :=
  .next (s.giveOrder (s.orderEntry slot 5 (some circuit) (some n) none))

/-- SET_CLASS (R27). -/
def execSetClass (slot : OrderSlot) (line cls : Word) (s : State) : Host.Outcome State Fault Refusal :=
  .next (s.giveOrder (s.orderEntry slot 6 (some line) (some cls) none))

/-- SET_METER (R107). -/
def execSetMeter (slot : OrderSlot) (line low high : Word) (s : State) : Host.Outcome State Fault Refusal :=
  .next (s.giveOrder (s.orderEntry slot 7 (some line) (some low) (some high)))

/-- SET_TIME (R76). -/
def execSetTime (slot : OrderSlot) (minute second : Word) (s : State) : Host.Outcome State Fault Refusal :=
  .next (s.giveOrder (s.orderEntry slot 8 (some minute) (some second) none))

/-- LOAD_TARIFF (R84). -/
def execLoadTariff (slot : OrderSlot) (dist bandInit interval : Word) (s : State) :
    Host.Outcome State Fault Refusal :=
  .next (s.giveOrder (s.orderEntry slot 9 (some dist) (some bandInit) (some interval)))

/-- LOAD_CALENDAR (R78). -/
def execLoadCalendar (slot : OrderSlot) (index minute band : Word) (s : State) : Host.Outcome State Fault Refusal :=
  .next (s.giveOrder (s.orderEntry slot 10 (some index) (some minute) (some band)))

/-- SET_FAULT (R13). -/
def execSetFault (slot : OrderSlot) (stage coord1 coord2 : Word) (s : State) : Host.Outcome State Fault Refusal :=
  .next (s.giveOrder (s.orderEntry slot 11 (some stage) (some coord1) (some coord2)))

/-- CLEAR_FAULT (R14). -/
def execClearFault (slot : OrderSlot) (target coord1 coord2 : Word) (s : State) :
    Host.Outcome State Fault Refusal :=
  .next (s.giveOrder (s.orderEntry slot 12 (some target) (some coord1) (some coord2)))

/-- CLEAR_FAULT_METER (R110). -/
def execClearFaultMeter (slot : OrderSlot) (line : Word) (s : State) : Host.Outcome State Fault Refusal :=
  .next (s.giveOrder (s.orderEntry slot 12 (some 2) (some line) none))

/-- SERVICE_LINK (R10). -/
def execServiceLink (slot : OrderSlot) (group linkDir : Word) (s : State) : Host.Outcome State Fault Refusal :=
  .next (s.giveOrder (s.orderEntry slot 13 (some 0) (some group) (some linkDir)))

/-- SERVICE_CIRCUIT (R10). -/
def execServiceCircuit (slot : OrderSlot) (circuit dir : Word) (s : State) : Host.Outcome State Fault Refusal :=
  .next (s.giveOrder (s.orderEntry slot 13 (some 1) (some circuit) (some dir)))

end Sys2Proof.Machine
end

