-- ==== Sys2Proof/Machine/Sequences.lean ====
section
/-!
DEFINITION. The ends of what owns the memory port: the processor's order write (R145), its passed access (R162) and the 716's
locked sequences (R165): result write, ticket burst, SET METER, posting. A sequence's writes reach the call store in its end event
(assumption log 12). An end that is commanded while its sequence does not own the port is no event, and changes nothing
(assumption log 13).
-/

namespace Sys2Proof.Machine

/-- The order write at an address with a value completes at memory: the word is written, the cycle ends with PRDY, and the
order is taken with the staging copy as it stands (R145). -/
def State.orderWriteDone (s : State) (a v : Word) : State :=
  let s := ((s.writeMem a v).endCycle .prdy none).freePort
  match s.map.region a with
  | .order off =>
    let e := s.orderEntry (offsetSlot off) (orderKind v) none none none
    if s.mayTake e then s.takeOrder e else s
  | .outside => s
  | .cells _ => s
  | .calls _ => s
  | .meter _ => s
  | .ticket _ => s

/-- The processor's order write under way completes (R145). -/
def State.processorAccessDone (s : State) : State :=
  match s.cycles with
  | .write a v :: _ => s.orderWriteDone a v
  | .read _ _ :: _ => s.freePort
  | [] => s.freePort

/-- A dispatcher that waits on a slot becomes ready (R151). -/
def State.readyDispatcher (s : State) (i : OrderSlot) : State :=
  if s.dispatcher = .waiting i then { s with dispatcher := .ready } else s

/-- A result write completes: the word stands in the slot, the entry leaves, the slot is IDLE, a dispatcher waiting on it is
ready and takes what it can (R151, R148). -/
def State.resultWriteDone (s : State) : State :=
  match s.results with
  | r :: rest =>
    ((({ s with results := rest }.writeMem (s.map.slotAddr r.slot 3) (resultWord r)).setSlotState r.slot .idle).readyDispatcher
      r.slot).freePort.runDispatch
  | [] => s.freePort

/-- A posting whose reads were clean ends, by the record it read (R99, R100, R103). -/
def State.postingClean (s : State) (p : Posting) : State :=
  if s.meterReadsValid p.line then s.postingDone p else s.postingCorrupt p

/-- What owns the port runs to its end, and its end event is taken (R162, R165, R167). A posting runs to its end with no read met by
MPERR: that the rest of a posting in progress at a reset meets none is the model's choice (assumption log 33). -/
def State.finishOwner (s : State) : State :=
  match s.owner with
  | .none => s
  | .processor => s.processorAccessDone
  | .passed => s.passedAccessDone
  | .resultWrite => s.resultWriteDone
  | .ticketBurst => s.burstEnd
  | .setMeter => s.setMeterDone
  | .posting p => s.postingClean p

/-! ## The end events as commands -/

/-- The end of the processor's order write, if it owns the port. -/
def State.orderTakenEvent (s : State) : State :=
  if s.owner = .processor then s.processorAccessDone.askPort else s

/-- The end of a result write, if it owns the port. -/
def State.resultWriteEvent (s : State) : State := if s.owner = .resultWrite then s.resultWriteDone.askPort else s

/-- The end of a ticket burst, if it owns the port. -/
def State.burstEndEvent (s : State) : State := if s.owner = .ticketBurst then s.burstEnd.askPort else s

/-- The end of a SET METER sequence, if it owns the port. -/
def State.setMeterEvent (s : State) : State := if s.owner = .setMeter then s.setMeterDone.askPort else s

/-- The posting that owns the port. -/
def State.postingInProgress (s : State) : Option Posting :=
  match s.owner with
  | .posting p => some p
  | .none => none
  | .processor => none
  | .passed => none
  | .resultWrite => none
  | .ticketBurst => none
  | .setMeter => none

/-- The end of a posting whose record read valid. -/
def State.postingEndEvent (s : State) : State :=
  match s.postingInProgress with
  | some p => if s.meterReadsValid p.line then (s.postingDone p).askPort else s
  | none => s

/-- A read of the posting is answered with MPERR. -/
def State.postingParityEvent (s : State) : State :=
  match s.postingInProgress with
  | some p => (s.postingParity p).askPort
  | none => s

/-- The end of a posting whose record read corrupt. -/
def State.postingCorruptEvent (s : State) : State :=
  match s.postingInProgress with
  | some p => if s.meterReadsValid p.line then s else (s.postingCorrupt p).askPort
  | none => s

/-- ORDER_TAKEN (R145). -/
def execOrderTaken (s : State) : Host.Outcome State Fault Refusal := running State.orderTakenEvent s

/-- RESULT_WRITE_COMPLETE (R151). -/
def execResultWriteComplete (s : State) : Host.Outcome State Fault Refusal := running State.resultWriteEvent s

/-- TICKET_BURST_END (R135). -/
def execTicketBurstEnd (s : State) : Host.Outcome State Fault Refusal := running State.burstEndEvent s

/-- SET_METER_WRITE_COMPLETE (R109). -/
def execSetMeterWriteComplete (s : State) : Host.Outcome State Fault Refusal := running State.setMeterEvent s

/-- POSTING_END (R99, R100). -/
def execPostingEnd (s : State) : Host.Outcome State Fault Refusal := running State.postingEndEvent s

/-- POSTING_PARITY_ERROR (R102, R104, R105). -/
def execPostingParityError (s : State) : Host.Outcome State Fault Refusal := running State.postingParityEvent s

/-- POSTING_RECORD_CORRUPT (R103, R105). -/
def execPostingRecordCorrupt (s : State) : Host.Outcome State Fault Refusal := running State.postingCorruptEvent s

end Sys2Proof.Machine
end

