-- ==== Sys2Proof/Machine/Resets.lean ====
section
/-!
DEFINITION. Master reset, its release, and partial reset (R167 and the reset rules of every chapter). A reset is recognised
after the end event of what owns the port.
-/

namespace Sys2Proof.Machine

/-- Every block takes its master reset values; the call store is not touched, the processor's cycles that have not ended
end with PBERR, and CLEAR ALL stands alone in the transmit queue (R6, R11, R15, R22, R25, R39, R70, R75, R77, R83, R97, R141,
R154, R167, R168). A command on the wire reaches its driver board (R70), and MXO is idle while MRST is active (R68); how its frame ends is left open,
and that `onWire` becomes none at once is the model's choice (assumption log 32). -/
def State.resetValues (s : State) : State :=
  { State.reset with
    mem := s.mem, pending := s.pending, ends := s.ends ++ s.cycles.map fun _ => CycleEnd.pberr }

/-- Master reset: what owns the port ends first, then every block resets (R167). -/
def State.masterReset (s : State) : State := s.finishOwner.resetValues

/-- MASTER_RESET (R167). -/
def execMasterReset (s : State) : Host.Outcome State Fault Refusal := .next s.masterReset

/-- The release of MRST with the level of LOADCFG: low, the preset layout and READY; high, LOADING with no word taken (R156). -/
def State.releaseMrst (s : State) (loadcfg : Bool) : State :=
  if loadcfg then { s with phase := .loading [] } else s.installPreset false

/-- MRST_RELEASE (R156); with MRST not active there is nothing to release. -/
def execMrstRelease (loadcfg : Bool) (s : State) : Host.Outcome State Fault Refusal :=
  .next (if s.isHeld then s.releaseMrst loadcfg else s)

/-- A stretched order write ends with PBERR at a reset, with no sticky (R146, R153, R167). -/
def State.endStretched (s : State) : State :=
  match s.stretch with
  | .held _ => s.endCycle .pberr none
  | .none => s
  | .placeKept => { s with stretch := .none }

/-- Partial reset of the Order Unit, with every binding dropped (R153, R22). -/
def State.resetOrders (s : State) : State :=
  { s with slots := Vector.replicate 32 { state := .idle, w0 := 0, w1 := 0, w2 := 0 }, orderQueue := [], results := [],
           dispatcher := .ready, records := s.records.map fun r => { r with boundSlot := none } }

/-- Partial reset of the Report Unit (R168, R169, R171). -/
def State.resetReports (s : State) : State :=
  { s with reports := [], latch := none, reportsLost := false, memoryError := false, guardedWrite := false }

/-- Partial reset of the Call Store Path, with a SET METER not yet granted withdrawn (R109, R164, R167). -/
def State.resetPort (s : State) : State :=
  { s.endStretched with readPair := none, grantCount := 0, setMeterJob := none, meterRequest := false }

/-- Partial reset: what owns the port ends first, then the order slots, queues, reports and stickies are emptied and the
rest is kept; a processor cycle that waited goes on waiting, and the arbiter makes its next choice (R167). -/
def State.partialReset (s : State) : State := s.finishOwner.resetPort.resetOrders.resetReports.askPort

/-- PARTIAL_RESET (R167); while MRST is active PRST has no effect. -/
def execPartialReset (s : State) : Host.Outcome State Fault Refusal := running State.partialReset s

end Sys2Proof.Machine
end

