-- ==== Sys2Proof/Machine/Clock.lean ====
section
/-!
DEFINITION. One period of CLK: what a step is when no command waits (assumption log 11). First every divider and timer counts
the period; then what has fallen due is taken in a fixed order: the owner of the port, the stretch timer, MXO, the response
timers oldest first, the records' timers by ascending circuit, the scan, the metering tick; then the arbiter chooses. While MRST
is active nothing counts (R49, R68, R72).
-/

namespace Sys2Proof.Machine

/-! ## Counting -/

/-- A timer with one period less. -/
def countDown (t : Option Nat) : Option Nat := t.map fun n => n - 1

/-- A timer that has run out. -/
def ranOut (t : Option Nat) : Bool := decide (t = some 0)

/-- A record with its settle, guard and called-clear timers one period on (R73: they are kept in time from CLK). -/
def CallRecord.countTimers (r : CallRecord) : CallRecord :=
  { r with settle := countDown r.settle, guardTimer := countDown r.guardTimer, calledClear := countDown r.calledClear }

/-- The stretch with its timer one period on (R146). -/
def Stretch.count : Stretch → Stretch
  | .held n => .held (n - 1)
  | .none => .none
  | .placeKept => .placeKept

/-- Every divider and timer counts one period (R38, R55, R72, R146, R174). -/
def State.countPeriod (s : State) : State :=
  { s with
    bitClock := if s.bitClock + 1 < Config.bitPeriods then s.bitClock + 1 else 0
    wireLeft := s.wireLeft - 1
    outstanding := s.outstanding.map fun o => { o with left := o.left - 1 }
    records := s.records.map CallRecord.countTimers
    scanDivider := s.scanDivider + 1
    tickDivider := s.tickDivider + 1
    stretch := s.stretch.count
    accessLeft := s.accessLeft - 1 }

/-! ## What falls due -/

/-- The owner of the port has come to its end: its last access is over, or it is a posting whose two reads are over and found the
record corrupt (R103, R165). -/
def State.ownerDue (s : State) : Bool :=
  match s.owner with
  | .posting p =>
    decide (s.accessLeft = 0) || (decide (s.accessLeft ≤ 2 * Config.accessPeriods) && !s.meterReadsValid p.line)
  | .none => decide (s.accessLeft = 0)
  | .processor => decide (s.accessLeft = 0)
  | .passed => decide (s.accessLeft = 0)
  | .resultWrite => decide (s.accessLeft = 0)
  | .ticketBurst => decide (s.accessLeft = 0)
  | .setMeter => decide (s.accessLeft = 0)

/-- The owner of the port, at its end: its end event is taken (R162, R165), no read of a posting meeting MPERR (assumption
log 14). -/
def State.duePort (s : State) : State := if s.ownerDue then s.finishOwner else s

/-- The stretch timer (R146). -/
def State.dueStretch (s : State) : State := if s.stretch = .held 0 then s.refuseWrite else s

/-- MXO: a frame that has ended is sent in full; with MXO idle a queued command begins at a bit time boundary (R174). -/
def State.dueWire (s : State) : State :=
  match s.onWire with
  | some _ => if s.wireLeft = 0 then s.commandSent else s
  | none => if s.bitClock = 0 then s.beginCommand else s

/-- The timeout of an outstanding command is handed to its job (R55). -/
def State.timeOut (s : State) (o : Outstanding) : State :=
  match o.kind with
  | .makeJob => s.matched .makeJob o.xp fun s x => s.makeTimedOut x o.xp
  | .breakJob => s.matched .breakJob o.xp fun s x => s.breakFaulted x o.xp

/-- The response timers that have run out (R55). -/
def State.dueResponses (s : State) : State := (s.outstanding.filter fun o => decide (o.left = 0)).foldl State.timeOut s

/-- The expiries due at a record (R42, R46, R50). -/
def State.dueRecord (s : State) (x : Circuit) : State :=
  let s := if ranOut (s.record x).settle then s.settleExpired x else s
  let s := if ranOut (s.record x).calledClear then s.calledClearExpired x else s
  if ranOut (s.record x).guardTimer then s.guardExpired x else s

/-- The timers of the records. -/
def State.dueRecords (s : State) : State := (List.finRange 56).foldl State.dueRecord s

/-- The scan interval: at the end of its round the levels that stand on the pins are sampled again (R38, R175). -/
def State.dueScan (s : State) : State := if Config.scanPeriods ≤ s.scanDivider then s.scan s.scanPins else s

/-- The tick divider (R72). -/
def State.dueTick (s : State) : State := if Config.tickPeriods ≤ s.tickDivider then s.meteringTick else s

/-- One period of CLK. -/
def State.clockPeriod (s : State) : State :=
  if s.isHeld then s
  else s.countPeriod.duePort.dueStretch.dueWire.dueResponses.dueRecords.dueScan.dueTick.askPort

end Sys2Proof.Machine
end

