-- ==== Sys2Proof/Machine/Dispatch.lean ====
section
/-!
DEFINITION. The meaning of a command: one arm for each constructor of Instr, each one call.
-/

namespace Sys2Proof.Machine

/-- What a command does to everything but the queue of waiting commands. -/
def exec (i : Instr) (s : State) : Host.Outcome State Fault Refusal :=
  match i with
  | .masterReset => Sys2Proof.Machine.execMasterReset s
  | .mrstRelease loadcfg => Sys2Proof.Machine.execMrstRelease loadcfg s
  | .partialReset => Sys2Proof.Machine.execPartialReset s
  | .cycleWhileMrst write addr data => Sys2Proof.Machine.execCycleWhileMrst write addr data s
  | .configurationWord addr value => Sys2Proof.Machine.execConfigurationWord addr value s
  | .passedRead addr answer => Sys2Proof.Machine.execPassedRead addr answer s
  | .passedWrite addr data => Sys2Proof.Machine.execPassedWrite addr data s
  | .meterWord0Read line answer => Sys2Proof.Machine.execMeterWord0Read line answer s
  | .guardedWrite addr value => Sys2Proof.Machine.execGuardedWrite addr value s
  | .statusRead => Sys2Proof.Machine.execStatusRead s
  | .reportARead => Sys2Proof.Machine.execReportARead s
  | .readIndexWrite data => Sys2Proof.Machine.execReadIndexWrite data s
  | .argumentWordWrite slot word data => Sys2Proof.Machine.execArgumentWordWrite slot word data s
  | .orderWordWrite slot data => Sys2Proof.Machine.execOrderWordWrite slot data s
  | .stretchTimerExpiry => Sys2Proof.Machine.execStretchTimerExpiry s
  | .orderTaken => Sys2Proof.Machine.execOrderTaken s
  | .badOrder slot kind w0 w1 w2 => Sys2Proof.Machine.execBadOrder slot kind w0 w1 w2 s
  | .connectLocal slot calling called => Sys2Proof.Machine.execConnectLocal slot calling called s
  | .connectOutgoing slot calling group dist => Sys2Proof.Machine.execConnectOutgoing slot calling group dist s
  | .connectIncoming slot circuit called => Sys2Proof.Machine.execConnectIncoming slot circuit called s
  | .release slot circuit => Sys2Proof.Machine.execRelease slot circuit s
  | .addCredit slot circuit n => Sys2Proof.Machine.execAddCredit slot circuit n s
  | .setClass slot line cls => Sys2Proof.Machine.execSetClass slot line cls s
  | .setMeter slot line low high => Sys2Proof.Machine.execSetMeter slot line low high s
  | .setTime slot minute second => Sys2Proof.Machine.execSetTime slot minute second s
  | .loadTariff slot dist bandInit interval => Sys2Proof.Machine.execLoadTariff slot dist bandInit interval s
  | .loadCalendar slot index minute band => Sys2Proof.Machine.execLoadCalendar slot index minute band s
  | .setFault slot stage coord1 coord2 => Sys2Proof.Machine.execSetFault slot stage coord1 coord2 s
  | .clearFault slot target coord1 coord2 => Sys2Proof.Machine.execClearFault slot target coord1 coord2 s
  | .clearFaultMeter slot line => Sys2Proof.Machine.execClearFaultMeter slot line s
  | .serviceLink slot group linkDir => Sys2Proof.Machine.execServiceLink slot group linkDir s
  | .serviceCircuit slot circuit dir => Sys2Proof.Machine.execServiceCircuit slot circuit dir s
  | .resultWriteComplete => Sys2Proof.Machine.execResultWriteComplete s
  | .ticketBurstEnd => Sys2Proof.Machine.execTicketBurstEnd s
  | .setMeterWriteComplete => Sys2Proof.Machine.execSetMeterWriteComplete s
  | .postingEnd => Sys2Proof.Machine.execPostingEnd s
  | .postingParityError => Sys2Proof.Machine.execPostingParityError s
  | .postingRecordCorrupt => Sys2Proof.Machine.execPostingRecordCorrupt s
  | .meteringTick => Sys2Proof.Machine.execMeteringTick s
  | .graceExpiry circuit => Sys2Proof.Machine.execGraceExpiry circuit s
  | .minuteRollover => Sys2Proof.Machine.execMinuteRollover s
  | .scan raw => Sys2Proof.Machine.execScan raw s
  | .fAppears circuit => Sys2Proof.Machine.execFAppears circuit s
  | .fDisappears circuit => Sys2Proof.Machine.execFDisappears circuit s
  | .bAppears circuit => Sys2Proof.Machine.execBAppears circuit s
  | .bDisappears circuit => Sys2Proof.Machine.execBDisappears circuit s
  | .settleExpiry circuit => Sys2Proof.Machine.execSettleExpiry circuit s
  | .calledClearExpiry circuit => Sys2Proof.Machine.execCalledClearExpiry circuit s
  | .guardExpiry circuit => Sys2Proof.Machine.execGuardExpiry circuit s
  | .commandSent => Sys2Proof.Machine.execCommandSent s
  | .makeDone resp => Sys2Proof.Machine.execMakeDone resp s
  | .makeFail resp => Sys2Proof.Machine.execMakeFail resp s
  | .makeTimeout xp => Sys2Proof.Machine.execMakeTimeout xp s
  | .breakDone resp => Sys2Proof.Machine.execBreakDone resp s
  | .breakFail resp => Sys2Proof.Machine.execBreakFail resp s
  | .breakTimeout xp => Sys2Proof.Machine.execBreakTimeout xp s

end Sys2Proof.Machine
end

