-- ==== Sys2Proof/Safety.lean ====
section
/-!
DEFINITION. What counts as a safe run of the 716, and the words the statements use: the state a run must keep (canonical
call store, queues and counts within the bounds the spec gives them, a valid map), the quiet states in which a command
meets no other work, and what the arbiter may change beside a command's own effect.
-/

namespace Sys2Proof.Machine

/-! ## What every step keeps -/

/-- The call store is in its canonical form. -/
def State.StoreInv (s : State) : Prop := Memory.wf s.mem = true

/-- The queues and tables stay within the capacities the spec gives them: report queue 32 (R168), order queue 8 (R145), hold
queue 8 (R130), fault table 32 with no crosspoint twice (section 1.4, R12), grant count 8 (R164); and a record waits in
CLOSING only at a full hold queue (R128, R131). -/
structure State.QueueInv (s : State) : Prop where
  reports : s.reports.length ≤ 32
  orders : s.orderQueue.length ≤ 8
  held : s.holdQueue.length ≤ 8
  closing : s.closingWaiters ≠ [] → s.holdQueue.length = 8
  faults : s.faults.length ≤ 32
  faultsOnce : s.faults.Nodup
  grants : s.grantCount ≤ 8

/-- The counts of a call record stay within their ranges (R88 to R93, R113, R115, R117). -/
structure CallRecord.CountInv (r : CallRecord) : Prop where
  acc : r.acc < 65536
  paid : r.paid ≤ 65535
  owed : r.owed ≤ 127
  credit : r.credit ≤ 255
  duration : r.duration ≤ 16777215
  grace : ∀ n, r.grace = some n → 1 ≤ n ∧ n ≤ 100

/-- The counts of the records and lines, the week clock, the calendar, the tariff and the sequence counter stay within the
ranges the spec gives them (R25, R74, R77, R83 to R85, R93, R129). -/
structure State.CountInv (s : State) : Prop where
  records : ∀ x : Circuit, (s.record x).CountInv
  pulses : ∀ l : Line, (s.line l).pulses ≤ 65535
  minute : s.weekMinute < 10080
  second : s.second < 60
  tenths : s.tenths < 10
  calendar : ∀ i : Fin 16, (s.calendar[i]).minute < 10080
  interval : ∀ d b, (s.tariffEntry d b).interval ≤ 6000
  initial : ∀ d b, (s.tariffEntry d b).initial ≤ 3
  increment : ∀ d b, (s.tariffEntry d b).increment = tariffIncrement (s.tariffEntry d b).interval
  sequence : s.seqCounter < 65536

/-- The fields of a composed ticket are within the widths of section 11.4: a cord or an outgoing junction, credit at most 255, owed
at most 127, an answer time of the week, duration and paid at most 65,535 (R126, R127). -/
structure TicketBody.InRange (b : TicketBody) : Prop where
  circuit : b.circuit.val < 48
  credit : b.credit ≤ 255
  owed : b.owed ≤ 127
  minute : b.answerMinute < 10080
  second : b.answerSecond < 60
  duration : b.duration ≤ 65535
  paid : b.paid ≤ 65535

/-- Every ticket held, and every ticket of a record that waits in CLOSING, is within its range; so are the answer stamps they are
composed from, and an incoming record has no ticket flag (R30, R43, R126, R129, R131). -/
structure State.TicketInv (s : State) : Prop where
  held : ∀ k ∈ s.holdQueue, k.seq < 65536 ∧ k.body.InRange
  waiting : ∀ e ∈ s.closingWaiters, e.2.InRange
  stamps : ∀ (x : Circuit) (st : Stamp) (m n : Nat), (s.record x).stamp = some st → st.time = some (m, n) → m < 10080 ∧ n < 60
  incoming : ∀ x : Circuit, 48 ≤ x.val → (s.record x).ticket = false

/-- The ring indices W and Rd are below the ring size N; before the part is ready both are 0 and no burst has been asked for
(R132 to R134, R157). -/
structure State.RingInv (s : State) : Prop where
  write : s.writeIndex < 16 * 2 ^ s.map.code
  read : s.readIndex < 16 * 2 ^ s.map.code
  before : s.phase ≠ .ready → s.writeIndex = 0 ∧ s.readIndex = 0 ∧ s.burst ≠ .waiting ∧ s.owner ≠ .ticketBurst

/-- Every persistence count of a supervision point is absent or 0 to 25 (R39). -/
def State.ScanInv (s : State) : Prop := ∀ (p : Point) (n : Nat), (s.points[p]).count = some n → n ≤ 25

/-- While the part is ready its region map and threshold are a valid set (R155, R156, R158). -/
def State.MapInv (s : State) : Prop := s.phase = .ready → configValid s.map s.threshold = true

/-- A state of a safe run. -/
structure State.Safe (s : State) : Prop where
  store : s.StoreInv
  queues : s.QueueInv
  counts : s.CountInv
  mapped : s.MapInv
  tickets : s.TicketInv
  ring : s.RingInv
  scan : s.ScanInv

/-! ## Quiet states -/

/-- The port is free for the processor's next cycle: nothing owns it, no cycle waits, none is stretched, and the processor has
not yet had 8 grants in a row over a waiting request (R163, R164). -/
def State.PortFree (s : State) : Prop :=
  s.cycles = [] ∧ s.owner = .none ∧ s.stretch = .none ∧ s.grantCount < 8

/-- An order of a slot is taken and dispatched at once: the part is ready, the slot IDLE, the order queue empty, the dispatcher
ready, and no order write of the processor under way (R145, R148). -/
def State.OrderFree (s : State) (slot : OrderSlot) : Prop :=
  s.phase = .ready ∧ (s.slot slot).state = .idle ∧ s.orderQueue = [] ∧ s.dispatcher = .ready
    ∧ s.cycles = [] ∧ s.stretch = .none ∧ s.owner ≠ .processor

/-! ## One CLK period -/

/-- `s` with every divider and timer counted by one CLK period, and nothing that falls due taken yet (R38, R41, R45, R49, R55, R72,
R146, R174). -/
def State.periodCounted (s : State) : State :=
  { s with
    records := s.records.map fun r =>
      { r with settle := r.settle.map fun n => n - 1, guardTimer := r.guardTimer.map fun n => n - 1,
               calledClear := r.calledClear.map fun n => n - 1 }
    outstanding := s.outstanding.map fun o => { o with left := o.left - 1 }
    scanDivider := s.scanDivider + 1
    tickDivider := s.tickDivider + 1
    bitClock := if s.bitClock + 1 < 64 then s.bitClock + 1 else 0
    wireLeft := s.wireLeft - 1
    accessLeft := s.accessLeft - 1
    stretch :=
      match s.stretch with
      | .held n => .held (n - 1)
      | .none => .none
      | .placeKept => .placeKept }

/-- No owner of the port comes to its end in the next CLK period, and no order write is stretched (R146, R165). -/
def State.PortQuiet (s : State) : Prop :=
  (s.owner ≠ .none → 5 < s.accessLeft) ∧ s.stretch = .none

/-- No word ends or begins on MXO in the next CLK period (R174). -/
def State.WireQuiet (s : State) : Prop := (s.onWire ≠ none → 1 < s.wireLeft) ∧ (s.onWire = none → s.bitClock + 1 < 64)

/-- No response timer runs out in the next CLK period (R55). -/
def State.ResponsesQuiet (s : State) : Prop := ∀ o ∈ s.outstanding, 1 < o.left

/-- No settle, guard or called-clear timer of record `x` runs out in the next CLK period (R41, R45, R49). -/
def State.RecordQuiet (s : State) (x : Circuit) : Prop :=
  (∀ n, (s.record x).settle = some n → 1 < n) ∧ (∀ n, (s.record x).guardTimer = some n → 1 < n)
    ∧ ∀ n, (s.record x).calledClear = some n → 1 < n

/-- Neither the scan interval nor the tick divider comes round in the next CLK period (R38, R72). -/
def State.DividersQuiet (s : State) : Prop := s.scanDivider + 1 < 40960 ∧ s.tickDivider + 1 < 409600

/-- Command `i` is the end event of what owns the port: of the processor's order write (R145), of a result write (R151), of a ticket
burst (R135), of a SET METER (R109), or of a posting, by the record it reads (R100, R103). Nothing else of the processor waits. -/
def State.EndsBy (s : State) (i : Instr) : Prop :=
  (s.owner = .processor ∧ i = .orderTaken ∧ ∃ a v, s.cycles = [.write a v]) ∨
  (s.cycles = [] ∧
    ((s.owner = .resultWrite ∧ i = .resultWriteComplete) ∨ (s.owner = .ticketBurst ∧ i = .ticketBurstEnd) ∨
      (s.owner = .setMeter ∧ i = .setMeterWriteComplete) ∨
      ∃ p, s.owner = .posting p ∧ i = if s.meterReadsValid p.line then .postingEnd else .postingRecordCorrupt))

/-- The command of a processor cycle that is passed to memory, completed in its own event. -/
def passedCommand : Cycle → Instr
  | .read a mperr => .passedRead a ⟨mperr, false⟩
  | .write a v => .passedWrite a ⟨v, false⟩

/-! ## Beside a command's own effect -/

/-- `t` is `u` with what the arbiter may change when it chooses at the end of an event: the owner and its accesses, the
requests of the Ticket Unit and the Meter Engine, the grant count, the poster's pointer and retry line (R98, R134, R163,
R164). -/
def State.ArbiterOnly (u t : State) : Prop :=
  t = { u with owner := t.owner, accessLeft := t.accessLeft, burst := t.burst, meterRequest := t.meterRequest,
               grantCount := t.grantCount, postPointer := t.postPointer, retryLine := t.retryLine }

/-- `t` is `s` after a passed cycle has been granted in its own event, with the access that memory completes later under way: the cycle
owns the port, the read pair stands as given, and nothing else has happened (R106, R162). -/
def State.OwnsPort (s t : State) (c : Cycle) (pair : Option Line) : Prop :=
  State.ArbiterOnly { s with ends := [], cycles := [c], readPair := pair } t ∧ t.owner = .passed ∧ t.accessLeft = 2

/-- `u` after an order of a slot has been answered: its slot is IN FLIGHT, its result stands at the tail of the result list, and
the dispatcher waits on the slot (R148 to R150). -/
def State.answered (u : State) (slot : OrderSlot) (code : ResultCode) (circuit : Option Circuit) : State :=
  { u with slots := u.slots.set slot.val { u.slot slot with state := .inFlight } slot.isLt,
           results := u.results ++ [{ slot := slot, code := code, circuit := circuit }], dispatcher := .waiting slot }

/-! ## Entry into CLEARING, and the band -/

/-- `s` after record `x` has entered CLEARING with a cause and its break job has begun with a crosspoint: timers stopped, a queued
PAY TONE withdrawn, BREAK issued, report CLEAR handed over (R36, R64, R69). -/
def State.clearedTo (s : State) (x : Circuit) (c : ClearCause) (xp : Crosspoint) : State :=
  ({ s with
    records := s.records.set x.val
      { s.record x with
        state := .clearing, cause := some c, settle := none, calledClear := none, grace := none,
        releasePending := false, path := markPath (s.record x).path xp .inFlight } x.isLt,
    txQueue := s.txQueue.filter (fun d => d ≠ .payTone x) ++ [.breakCmd x xp] } : State).report (.clear x c)

/-- `t` is `u` after record `x`, which was not answered, has entered CLEARING with a cause and nothing of its path made: its
break job is complete at once, so its links and lines are free and it is in GUARD with its fields clear and 300 ms to run; report
CLEAR is handed over and a queued PAY TONE withdrawn (R7, R23, R36, R37, R49, R64, R69). -/
structure State.ClearedAtOnce (u t : State) (x : Circuit) (c : ClearCause) : Prop where
  record : t.record x = { CallRecord.blank .guarded with guardTimer := some 1228800 }
  others : ∀ y, y ≠ x → t.record y = u.record y
  lines : ∀ l, t.line l
    = if some l = (u.record x).calling ∨ some l = calledLine (u.record x).called then { u.line l with busy := none }
      else u.line l
  links : ∀ gk, t.link gk = if (u.link gk).holder = some x then { u.link gk with holder := none } else u.link gk
  rest : State.ArbiterOnly
    (({ u with records := t.records, lines := t.lines, links := t.links,
               txQueue := u.txQueue.filter fun d => d ≠ .payTone x } : State).report (.clear x c)) t

/-- The result that ends the connect of a record, for its bound slot if it has one (R57, R61 to R63). -/
def connectResult (x : Circuit) (r : CallRecord) (code : ResultCode) : List Result :=
  match r.boundSlot with
  | some b => [{ slot := b, code := code, circuit := some x }]
  | none => []

/-- `s` after operate slot `n` has become free and has been granted in the same event to record `y`, the head of the wait list, with
`later` behind it: `y` is in SETTING with MAKE of `yp`, the first crosspoint of its path, issued (R53, R56). -/
def State.slotGranted (s : State) (n : Fin 4) (y : Circuit) (yp : Crosspoint) (later : List Circuit) : State :=
  { s with
    operateSlots := s.operateSlots.set n.val (some y) n.isLt, waitList := later, txQueue := s.txQueue ++ [.makeCmd y yp],
    records := s.records.set y.val
      { s.record y with state := .setting, path := markPath (s.record y).path yp .inFlight } y.isLt }

/-- Record `x` alone holds operate slot `n`, no operate slot is free, and record `y`, whose first crosspoint to make is `yp`, waits at
the head of the wait list with `later` behind it (R51, R52). -/
def State.SlotAwaited (s : State) (x : Circuit) (n : Fin 4) (y : Circuit) (yp : Crosspoint) (later : List Circuit) : Prop :=
  s.operateSlots[n] = some x ∧ (∀ m : Fin 4, m ≠ n → s.operateSlots[m] ≠ some x ∧ s.operateSlots[m] ≠ none) ∧
    s.waitList = y :: later ∧ y ≠ x ∧ nextUnmade (s.record y).path = some yp

/-! ## Responses, timeouts and the re-hunt -/

/-- A command of a kind for crosspoint `xp` is outstanding for circuit `x`; `rest` is the outstanding list without its entry
(R55). -/
def State.awaits (s : State) (k : JobKind) (xp : Crosspoint) (x : Circuit) (rest : List Outstanding) : Prop :=
  ∃ before o after, s.outstanding = before ++ o :: after ∧ o.kind = k ∧ o.xp = xp ∧ o.circuit = x
    ∧ (∀ q ∈ before, ¬ (q.kind = k ∧ q.xp = xp)) ∧ rest = before ++ after

/-- `s` after the entry of a crosspoint of record `x` has left the outstanding list and the crosspoint has been marked. -/
def State.responded (s : State) (x : Circuit) (xp : Crosspoint) (mark : Mark) (rest : List Outstanding) : State :=
  { s with
    outstanding := rest,
    records := s.records.set x.val { s.record x with path := markPath (s.record x).path xp mark } x.isLt }

/-- `s` after the link of a crosspoint has been taken out of service, its holder kept, with report LINK OUT (R8). -/
def State.linkTakenOut (s : State) (xp : Crosspoint) : State :=
  ({ s with
    links := s.links.set (linkIndex (crosspointLink xp)).val { s.link (crosspointLink xp) with inService := false }
      (linkIndex (crosspointLink xp)).isLt } : State).report (.linkOut (crosspointLink xp).1 (crosspointLink xp).2)

/-- `s` after the crosspoint of a failed MAKE has been recorded: listed already, nothing; with room, listed and reported; at 32
entries, its link taken out of service (R12). -/
def State.makeFaultRecorded (s : State) (xp : Crosspoint) (c : FaultCause) : State :=
  if xp ∈ s.faults then s
  else if 32 ≤ s.faults.length then s.linkTakenOut xp
  else ({ s with faults := s.faults ++ [xp] } : State).report (.crosspointFault xp c)

/-- `s` after the crosspoint of a failed BREAK has been recorded, if it was not listed and there was room, and its link taken out of
service (R12, R65). -/
def State.breakFaultRecorded (s : State) (xp : Crosspoint) : State :=
  (if xp ∈ s.faults ∨ 32 ≤ s.faults.length then s
    else ({ s with faults := s.faults ++ [xp] } : State).report (.crosspointFault xp .breakTimeout)).linkTakenOut xp

/-- Calendar entry `i` is the one that wins among the valid entries a condition admits: none has a later minute, and none of the same
minute a higher index (R79). -/
def State.calendarWinner (s : State) (admits : CalEntry → Prop) (i : Fin 16) : Prop :=
  (s.calendar[i]).valid = true ∧ admits s.calendar[i] ∧
    ∀ j : Fin 16, (s.calendar[j]).valid = true → admits s.calendar[j] →
      (s.calendar[j]).minute < (s.calendar[i]).minute ∨ ((s.calendar[j]).minute = (s.calendar[i]).minute ∧ j ≤ i)

/-- The band in force that the week minute and the calendar give (R79). -/
structure State.BandRule (s : State) (b : TimeBand) : Prop where
  unset : s.timeUnset = true → b = 0
  thisWeek : s.timeUnset = false → ∀ i, s.calendarWinner (fun e => e.minute ≤ s.weekMinute) i → b = (s.calendar[i]).band
  lastWeek : s.timeUnset = false → (∀ i : Fin 16, (s.calendar[i]).valid = true → s.weekMinute < (s.calendar[i]).minute) →
    ∀ i, s.calendarWinner (fun _ => True) i → b = (s.calendar[i]).band
  empty : s.timeUnset = false → (∀ i : Fin 16, (s.calendar[i]).valid = false) → b = 0

/-- `t` is `u` after the band in force has been re-evaluated: the band is the one R79 gives; unchanged, nothing else happens;
changed, the ANSWERED local and outgoing records are flagged and report BAND CHANGE is handed over (R79 to R81). -/
structure State.BandReevaluated (u t : State) : Prop where
  rule : u.BandRule t.band
  same : t.band = u.band → State.ArbiterOnly u t
  changed : t.band ≠ u.band →
    State.ArbiterOnly (({ u with band := t.band, records := t.records } : State).report (.bandChange t.band)) t ∧
    ∀ x, t.record x =
      if (u.record x).state = .answered ∧ circuitKind x ≠ .incoming then { u.record x with bandChanged := true }
      else u.record x

/-! ## The orders among the commands -/

/-- The order queue entry of an order command: its slot, its kind code and its argument words, the words it does not give standing as
in the slot's staging copy (section 8.5, R145); a command that is no order has none. -/
def State.entryOf (s : State) : Instr → Option OrderEntry
  | .masterReset => none
  | .mrstRelease _ => none
  | .partialReset => none
  | .cycleWhileMrst _ _ _ => none
  | .configurationWord _ _ => none
  | .passedRead _ _ => none
  | .passedWrite _ _ => none
  | .meterWord0Read _ _ => none
  | .guardedWrite _ _ => none
  | .statusRead => none
  | .reportARead => none
  | .readIndexWrite _ => none
  | .argumentWordWrite _ _ _ => none
  | .orderWordWrite _ _ => none
  | .stretchTimerExpiry => none
  | .orderTaken => none
  | .badOrder slot kind w0 w1 w2 => some (s.orderEntry slot kind (some w0) (some w1) (some w2))
  | .connectLocal slot a b => some (s.orderEntry slot 1 (some a) (some b) none)
  | .connectOutgoing slot a g d => some (s.orderEntry slot 2 (some a) (some g) (some d))
  | .connectIncoming slot x b => some (s.orderEntry slot 3 (some x) (some b) none)
  | .release slot x => some (s.orderEntry slot 4 (some x) none none)
  | .addCredit slot x n => some (s.orderEntry slot 5 (some x) (some n) none)
  | .setClass slot l c => some (s.orderEntry slot 6 (some l) (some c) none)
  | .setMeter slot l low high => some (s.orderEntry slot 7 (some l) (some low) (some high))
  | .setTime slot m sec => some (s.orderEntry slot 8 (some m) (some sec) none)
  | .loadTariff slot d b i => some (s.orderEntry slot 9 (some d) (some b) (some i))
  | .loadCalendar slot i m b => some (s.orderEntry slot 10 (some i) (some m) (some b))
  | .setFault slot st c1 c2 => some (s.orderEntry slot 11 (some st) (some c1) (some c2))
  | .clearFault slot st c1 c2 => some (s.orderEntry slot 12 (some st) (some c1) (some c2))
  | .clearFaultMeter slot l => some (s.orderEntry slot 12 (some 2) (some l) none)
  | .serviceLink slot g ld => some (s.orderEntry slot 13 (some 0) (some g) (some ld))
  | .serviceCircuit slot x d => some (s.orderEntry slot 13 (some 1) (some x) (some d))
  | .resultWriteComplete => none
  | .ticketBurstEnd => none
  | .setMeterWriteComplete => none
  | .postingEnd => none
  | .postingParityError => none
  | .postingRecordCorrupt => none
  | .meteringTick => none
  | .graceExpiry _ => none
  | .minuteRollover => none
  | .scan _ => none
  | .fAppears _ => none
  | .fDisappears _ => none
  | .bAppears _ => none
  | .bDisappears _ => none
  | .settleExpiry _ => none
  | .calledClearExpiry _ => none
  | .guardExpiry _ => none
  | .commandSent => none
  | .makeDone _ => none
  | .makeFail _ => none
  | .makeTimeout _ => none
  | .breakDone _ => none
  | .breakFail _ => none
  | .breakTimeout _ => none

/-! ## The suitability tests of the hunts, as R16 to R18 list them -/

/-- Every link of a path is held by none and in service, and no crosspoint of it is in the fault table (R16 to R18). -/
def State.pathFree (s : State) (p : Path) : Prop :=
  ∀ q ∈ p, (s.link (crosspointLink q.xp)).holder = none ∧ (s.link (crosspointLink q.xp)).inService = true
    ∧ q.xp ∉ s.faults

/-- A cord is suitable for a local call that is no re-hunt (R16). -/
def State.cordSuitable (s : State) (la lb : Line) (c : Cord) : Prop :=
  (s.record (cordCircuit c)).state = .free ∧ s.circuitInService[cordCircuit c] = true ∧ s.pathFree (localPath c la lb)

/-- The junction at a position of a group is suitable for an outgoing call that is no re-hunt (R17). -/
def State.junctionSuitable (s : State) (la : Line) (g : JunctionGroup) (q : Fin 8) : Prop :=
  (s.record (groupCircuit g q)).state = .free ∧ s.circuitInService[groupCircuit g q] = true
    ∧ s.pathFree (outgoingPath (groupCircuit g q) la)

/-- An incoming circuit is suitable for its called line (R18). -/
def State.incomingSuitable (s : State) (x : Circuit) (lb : Line) : Prop :=
  s.circuitInService[x] = true ∧ s.pathFree (incomingPath x lb)

/-- The local re-hunt of record `x` may take a cord: the cord is suitable, is not the failed one, and shares no link with the failed
path (R20). -/
def State.movesToCord (s : State) (x : Circuit) (la lb : Line) (c : Cord) : Prop :=
  cordCircuit c ≠ x ∧ s.cordSuitable la lb c ∧
    ∀ q ∈ localPath c la lb, crosspointLink q.xp ∉ (s.record x).path.map fun f => crosspointLink f.xp

/-- The outgoing re-hunt of record `x` may take the junction at a position of its group (R20). -/
def State.movesToJunction (s : State) (x : Circuit) (la : Line) (g : JunctionGroup) (q : Fin 8) : Prop :=
  groupCircuit g q ≠ x ∧ s.junctionSuitable la g q ∧
    ∀ p ∈ outgoingPath (groupCircuit g q) la, crosspointLink p.xp ∉ (s.record x).path.map fun f => crosspointLink f.xp

/-- No re-hunt of record `x` succeeds: it was re-hunted already, or is incoming, or no circuit may be taken (R18, R20, R58, R59). -/
def State.noRehunt (s : State) (x : Circuit) : Prop :=
  (s.record x).rehuntUsed = true ∨ 48 ≤ x.val ∨
    (x.val < 24 ∧ ∀ la lb c, (s.record x).calling = some la → (s.record x).called = some (.line lb) →
      ¬ s.movesToCord x la lb c) ∨
    (24 ≤ x.val ∧ x.val < 48 ∧ ∀ la g q, (s.record x).calling = some la → 24 + 8 * g.val ≤ x.val → x.val < 32 + 8 * g.val →
      ¬ s.movesToJunction x la g q)

/-! ## What an admission leaves -/

/-- A path with its first crosspoint in flight (R53, R56). -/
def firstInFlight : Path → Path
  | q :: rest => { q with mark := .inFlight } :: rest
  | [] => []

/-- The MAKE of the first crosspoint of a path. -/
def firstMake (x : Circuit) : Path → List PortCommand
  | q :: _ => [.makeCmd x q.xp]
  | [] => []

/-- `t` is `s` after a connect of an order slot has been admitted on circuit `x` with the call fields and path of `r` (R26, R31,
R52, R53): the lines of the call are busy with `x`, the links of its path are held by `x`, the slot is IN FLIGHT, and with a
free operate slot and nobody waiting the record is in SETTING with its first MAKE issued; with no operate slot free it is
RESERVED at the tail of the wait list. Nothing else changes but the hunt pointers and what the arbiter may change. -/
structure State.CallAdmitted (s t : State) (slot : OrderSlot) (x : Circuit) (r : CallRecord) : Prop where
  granted : s.waitList = [] → (∃ i : Fin 4, s.operateSlots[i] = none) →
    t.record x = { r with state := .setting, path := firstInFlight r.path } ∧ t.waitList = []
      ∧ t.txQueue = s.txQueue ++ firstMake x r.path
      ∧ ∃ i : Fin 4, s.operateSlots[i] = none ∧ t.operateSlots[i] = some x
        ∧ ∀ j : Fin 4, j ≠ i → t.operateSlots[j] = s.operateSlots[j]
  waits : (∀ i : Fin 4, s.operateSlots[i] ≠ none) →
    t.record x = r ∧ t.waitList = s.waitList ++ [x] ∧ t.txQueue = s.txQueue ∧ t.operateSlots = s.operateSlots
  others : s.waitList = [] ∨ (∀ i : Fin 4, s.operateSlots[i] ≠ none) → ∀ y, y ≠ x → t.record y = s.record y
  lines : ∀ l, t.line l
    = if some l = r.calling ∨ some l = calledLine r.called then { s.line l with busy := some x } else s.line l
  links : ∀ gk, t.link gk
    = if gk ∈ r.path.map (fun q => crosspointLink q.xp) then { s.link gk with holder := some x } else s.link gk
  slots : ∀ i, t.slot i = if i = slot then { s.slot i with state := .inFlight } else s.slot i
  rest : State.ArbiterOnly
    { s with records := t.records, lines := t.lines, links := t.links, slots := t.slots, cordPtr := t.cordPtr,
             groupPtrs := t.groupPtrs, operateSlots := t.operateSlots, waitList := t.waitList, txQueue := t.txQueue } t

/-- `t` is `s`, a state in which a MAKE of record `x` has just failed, after the call has moved to circuit `y` with path `p` (R59,
R60): `y` has the call's lines, band, flags and bound slot, the re-hunt-used flag, counts of 0, the lines' busy references, the
links of its path and the failed record's operate slot, and its first MAKE is issued behind the failed record's BREAK; `x` keeps its
path alone and clears with cause PATH FAULT, complete at once and in GUARD if nothing of it is made. Nothing else changes but the hunt
pointers and what the arbiter may change. -/
structure State.CallMoved (s t : State) (x y : Circuit) (p : Path) (called : Called) : Prop where
  moved : t.record y =
    { CallRecord.blank .setting with
      calling := (s.record x).calling, called := some called, distBand := (s.record x).distBand, coin := (s.record x).coin,
      detailed := (s.record x).detailed, ticket := (s.record x).ticket, boundSlot := (s.record x).boundSlot,
      rehuntUsed := true, path := firstInFlight p }
  failed : ∀ xm, nextMade (s.record x).path = some xm →
    t.record x =
        { CallRecord.blank .clearing with cause := some .pathFault, path := markPath (s.record x).path xm .inFlight } ∧
      t.txQueue = (s.txQueue.filter fun d => d ≠ .payTone x) ++ [.breakCmd x xm] ++ firstMake y p
  failedAtOnce : nextMade (s.record x).path = none →
    t.record x = { CallRecord.blank .guarded with guardTimer := some 1228800 } ∧
      t.txQueue = (s.txQueue.filter fun d => d ≠ .payTone x) ++ firstMake y p
  others : ∀ z, z ≠ x → z ≠ y → t.record z = s.record z
  lines : ∀ l, t.line l
    = if some l = (s.record x).calling ∨ some l = calledLine (some called) then { s.line l with busy := some y } else s.line l
  links : ∀ gk, t.link gk
    = if gk ∈ p.map (fun q => crosspointLink q.xp) then { s.link gk with holder := some y }
      else if nextMade (s.record x).path = none ∧ (s.link gk).holder = some x then { s.link gk with holder := none }
      else s.link gk
  slots : t.operateSlots = s.operateSlots.map fun o => if o = some x then some y else o
  rest : State.ArbiterOnly
    (({ s with records := t.records, lines := t.lines, links := t.links, operateSlots := t.operateSlots, txQueue := t.txQueue,
               cordPtr := t.cordPtr, groupPtrs := t.groupPtrs } : State).report (.clear x .pathFault)) t

end Sys2Proof.Machine
end

