-- ==== Sys2Proof/Certificates/Slice0/Obligations.lean ====
section
/-!
DEFINITION. The statements for the provers: what the rules R<n> of spec/ say that the machine does.

Each statement of a command's own effect concludes that `exec` answers a next state, for every state and operands that meet
hypotheses on these alone, and says the whole next state: `State.ArbiterOnly u t` reads "t is u but for what the arbiter may
change at the end of the event", so all that `u` does not name is unchanged.
-/

open Sys2Proof Sys2Proof.Machine

/-! ## The machine -/

/-- A step with a command at the front of the queue is that command's meaning on the state with the rest of the queue. -/
def Obligations.StepRunsFrontCommand : Prop :=
  ∀ (c : Instr) (rest : List Instr) (s : State), step { s with pending := c :: rest } = exec c { s with pending := rest }

/-- No command and no clock period stops the part: the spec answers every error on the bus, in a result, in a report or in a
sticky (spec/00; model: Fault has no constructor). -/
def Obligations.EveryStepAnswersNext : Prop := ∀ s : State, ∃ t, step s = .next t

/-- A step with nothing waiting is one CLK period (assumption log 11, the model's choice). In a period in which nothing falls due
every timer and divider counts it: the scan interval (R38), the response timers (R55), the tick divider (R72), the records'
timers (R41, R45, R49), and nothing else changes. While MRST is active nothing counts (R49, R72). In a period in which one thing falls
due, the state so counted takes that event, as its command does: the end event of the owner of the port, a posting of a corrupt record
ending after its two reads (R103, R165); the end of the access of a passed cycle that owns the port (R162); the stretch timer (R146); the end of a word on MXO or
the beginning of the next at a bit time (R174); a response timeout (R55); a settle, guard or called-clear expiry (R42, R46, R50); the scan of
the levels on the pins (R38); the tick (R72). -/
def Obligations.QuietPeriodCountsTimers : Prop :=
  ∀ s : State, s.pending = [] →
    (s.phase = .held → step s = .next s) ∧
    (s.phase ≠ .held → s.cycles = [] → s.owner = .none → s.stretch = .none → s.onWire = none → s.wireLeft = 0 →
      s.accessLeft = 0 → s.txQueue = [] → (∀ o ∈ s.outstanding, 1 < o.left) →
      (∀ x : Circuit, (s.record x).settle ≠ some 0 ∧ (s.record x).settle ≠ some 1
        ∧ (s.record x).guardTimer ≠ some 0 ∧ (s.record x).guardTimer ≠ some 1
        ∧ (s.record x).calledClear ≠ some 0 ∧ (s.record x).calledClear ≠ some 1) →
      s.scanDivider + 1 < 40960 → s.tickDivider + 1 < 409600 →
      ∃ t, step s = .next t ∧
        State.ArbiterOnly
          { s with
            records := t.records, outstanding := s.outstanding.map fun o => { o with left := o.left - 1 },
            scanDivider := s.scanDivider + 1, tickDivider := s.tickDivider + 1,
            bitClock := if s.bitClock + 1 < 64 then s.bitClock + 1 else 0 } t ∧
        ∀ x : Circuit, t.record x =
          { s.record x with
            settle := (s.record x).settle.map fun n => n - 1, guardTimer := (s.record x).guardTimer.map fun n => n - 1,
            calledClear := (s.record x).calledClear.map fun n => n - 1 }) ∧
    (∀ i, s.phase ≠ .held → s.EndsBy i → (s.accessLeft = 1 ∨ (s.accessLeft = 5 ∧ i = .postingRecordCorrupt)) →
      s.stretch = .none → s.WireQuiet → s.ResponsesQuiet → (∀ x, s.RecordQuiet x) → s.DividersQuiet →
      ∃ t u, step s = .next t ∧ exec i s.periodCounted = .next u ∧ State.ArbiterOnly u t) ∧
    (∀ a, s.phase = .ready → s.owner = .passed → s.cycles = [.read a false] → s.map.region a = .outside → s.accessLeft = 1 →
      s.stretch = .none → s.WireQuiet → s.ResponsesQuiet → (∀ x, s.RecordQuiet x) → s.DividersQuiet →
      ∃ t, step s = .next t ∧
        State.ArbiterOnly
          { s.periodCounted with ends := s.ends ++ [.prdyWord (s.readMem a)], cycles := [], readPair := none } t) ∧
    (∀ c, s.phase ≠ .held → s.owner = .passed → s.cycles = [c] → s.isPassed c = true → s.accessLeft = 1 → s.stretch = .none →
      s.WireQuiet → s.ResponsesQuiet → (∀ x, s.RecordQuiet x) → s.DividersQuiet →
      ∃ t u, step s = .next t ∧
        exec (passedCommand c) { s.periodCounted with owner := .none, cycles := [], grantCount := 0 } = .next u ∧
        State.ArbiterOnly { u with ends := s.ends ++ u.ends } t) ∧
    (∀ c, s.phase ≠ .held → s.stretch = .held 1 → s.cycles = [c] → (s.owner ≠ .none → 5 < s.accessLeft) → s.WireQuiet →
      s.ResponsesQuiet → (∀ x, s.RecordQuiet x) → s.DividersQuiet →
      ∃ t u, step s = .next t ∧ exec .stretchTimerExpiry s.periodCounted = .next u ∧ State.ArbiterOnly u t) ∧
    (s.phase ≠ .held → s.cycles = [] → s.PortQuiet →
      (∀ c, s.onWire = some c → s.wireLeft = 1 → s.ResponsesQuiet → (∀ x, s.RecordQuiet x) → s.DividersQuiet →
        ∃ t u, step s = .next t ∧ exec .commandSent s.periodCounted = .next u ∧ State.ArbiterOnly u t) ∧
      (∀ c rest, s.onWire = none → s.bitClock + 1 = 64 → s.txQueue = c :: rest → s.ResponsesQuiet → (∀ x, s.RecordQuiet x) →
        s.DividersQuiet →
        ∃ t, step s = .next t ∧
          State.ArbiterOnly { s.periodCounted with onWire := some c, txQueue := rest, wireLeft := 1216 } t) ∧
      (∀ before o after, s.outstanding = before ++ o :: after → o.left = 1 → (∀ q ∈ before, 1 < q.left) →
        (∀ q ∈ after, 1 < q.left) → s.WireQuiet → (∀ x, s.RecordQuiet x) → s.DividersQuiet →
        ∃ t u, step s = .next t ∧
          exec (if o.kind = .makeJob then .makeTimeout o.xp else .breakTimeout o.xp) s.periodCounted = .next u ∧
          State.ArbiterOnly u t) ∧
      (∀ (x : Circuit) (i : Instr) (r : CallRecord), r = s.record x →
        ((i = .settleExpiry x ∧ r.settle = some 1 ∧ (∀ n, r.guardTimer = some n → 1 < n) ∧ ∀ n, r.calledClear = some n → 1 < n) ∨
          (i = .guardExpiry x ∧ r.guardTimer = some 1 ∧ (∀ n, r.settle = some n → 1 < n) ∧ ∀ n, r.calledClear = some n → 1 < n) ∨
          (i = .calledClearExpiry x ∧ r.calledClear = some 1 ∧ (∀ n, r.settle = some n → 1 < n)
            ∧ ∀ n, r.guardTimer = some n → 1 < n)) →
        (∀ y, y ≠ x → s.RecordQuiet y) → s.WireQuiet → s.ResponsesQuiet → s.DividersQuiet →
        ∃ t u, step s = .next t ∧ exec i s.periodCounted = .next u ∧ State.ArbiterOnly u t) ∧
      (s.WireQuiet → s.ResponsesQuiet → (∀ x, s.RecordQuiet x) →
        (s.scanDivider + 1 = 40960 → s.tickDivider + 1 < 409600 →
          ∃ t u, step s = .next t ∧ exec (.scan s.scanPins) s.periodCounted = .next u ∧ State.ArbiterOnly u t) ∧
        (s.scanDivider + 1 < 40960 → s.tickDivider + 1 = 409600 →
          ∃ t u, step s = .next t ∧ exec .meteringTick s.periodCounted = .next u ∧ State.ArbiterOnly u t)))

/-! ## What every step keeps -/

/-- Every step keeps the call store in its canonical form. -/
def Obligations.StepKeepsStoreCanonical : Prop :=
  ∀ s t : State, s.StoreInv → step s = .next t → t.StoreInv

/-- Every step keeps five bounds: the report queue at most 32 (R168), the order queue at most 8 (R145), the hold queue at most 8 (R130), the
fault table at most 32 with no crosspoint twice (R12), the grant count at most 8 (R164); and a record waits in CLOSING only at a full
hold queue (R128, R131). The result list, the transmit queue, the wait list and the number of CLOSING waiters are not bounded here. -/
def Obligations.StepKeepsQueueBounds : Prop :=
  ∀ s t : State, s.QueueInv → step s = .next t → t.QueueInv

/-- Every step keeps the counts of records and lines, the week clock, the calendar, the tariff and the sequence counter within
their ranges: in particular every accumulator lies in 0 to 65,535 (the law of R89) and every credit in 0 to 255 and owed count in
0 to 127 (the law of R115). Every step keeps the persistence counts of the points at most 25 (R39) and the ring indices W and Rd
below N (R133), and, with those counts, every ticket held or waiting within the widths of its fields (R126, R127, R129). -/
def Obligations.StepKeepsCounts : Prop :=
  (∀ s t : State, s.CountInv → step s = .next t → t.CountInv) ∧
  (∀ s t : State, s.ScanInv → step s = .next t → t.ScanInv) ∧
  (∀ s t : State, s.RingInv → step s = .next t → t.RingInv) ∧
  ∀ s t : State, s.CountInv → s.TicketInv → step s = .next t → t.TicketInv

/-- Every step keeps the region map in force valid while the part is ready (R155, R158). -/
def Obligations.StepKeepsValidMap : Prop :=
  ∀ s t : State, s.MapInv → step s = .next t → t.MapInv

/-- The state after reset meets the invariants. -/
def Obligations.ResetIsSafe : Prop := State.reset.Safe

/-! ## Resets and configuration -/

/-- MASTER_RESET leaves every block at the values its chapter gives (R6, R11, R15, R22, R25, R39, R68, R70, R75, R77, R83, R97, R129,
R130, R133, R142, R154, R167, R168, R169), whatever the state it meets; a SET METER that waits is withdrawn (R109). No word stands on MXO
(R68; that a frame begun before is cut there is the model's choice, assumption log 32). With the port unowned it touches no word of the
call store and ends every processor cycle that waits with PBERR. With a sequence or an order write owning the port, its end event is taken
first: what that wrote in the call store, and the cycle it ended, stand (R97, R109, R141, R153, R167; a posting's reads meet no MPERR,
assumption log 33); a passed read whose access is under way completes it (R167). The tick divider stands at the start of its first tick (R72),
the scan divider where the first round, begun at the release, is sampled 280 us after it (R38, R175; assumption log 24), and ATTN is inactive
(R170). -/
def Obligations.MasterResetLeavesResetValues : Prop :=
  ∀ s : State, ∃ t, exec .masterReset s = .next t ∧
    t.phase = .held ∧ t.configFault = false ∧ t.readPair = none ∧ t.grantCount = 0 ∧ t.owner = .none ∧ t.cycles = [] ∧
    t.stretch = .none ∧
    (∀ i, t.slot i = { state := .idle, w0 := 0, w1 := 0, w2 := 0 }) ∧ t.orderQueue = [] ∧ t.dispatcher = .ready ∧
    t.results = [] ∧
    (∀ gk, t.link gk = { holder := none, inService := true }) ∧ (∀ x : Circuit, t.circuitInService[x] = true) ∧
    t.faults = [] ∧ t.cordPtr = 0 ∧ (∀ g : JunctionGroup, t.groupPtrs[g] = 0) ∧
    (∀ i : Fin 4, t.operateSlots[i] = none) ∧ t.waitList = [] ∧ t.txQueue = [.clearAll] ∧ t.outstanding = [] ∧
    (∀ p : Point, t.points[p] = { present := false, count := none }) ∧
    (∀ x, t.record x = { CallRecord.blank .guarded with guardTimer := some 4096000 }) ∧
    (∀ l, t.line l = { cls := .spare, busy := none, pulses := 0, fault := .none }) ∧
    t.weekMinute = 0 ∧ t.second = 0 ∧ t.tenths = 0 ∧ t.timeUnset = true ∧ t.band = 0 ∧
    (∀ i : Fin 16, (t.calendar[i]).valid = false) ∧
    (∀ d b, t.tariffEntry d b = { interval := 0, initial := 0, increment := 0 }) ∧
    t.postPointer = 0 ∧ t.retryLine = none ∧ t.setMeterJob = none ∧ t.meterRequest = false ∧ t.onWire = none ∧
    t.holdQueue = [] ∧ t.closingWaiters = [] ∧ t.seqCounter = 0 ∧ t.writeIndex = 0 ∧ t.readIndex = 0 ∧ t.ringFull = false ∧
    t.burst = .idle ∧
    t.reports = [] ∧ t.latch = none ∧ t.reportsLost = false ∧ t.memoryError = false ∧ t.guardedWrite = false ∧
    t.attnActive = false ∧ t.tickDivider = 0 ∧ t.scanDivider + 1147 = 40960 ∧
    (s.owner = .none →
      (∀ a, t.readMem a = s.readMem a) ∧ t.ends = s.ends ++ s.cycles.map fun _ => CycleEnd.pberr) ∧
    (∀ i, s.phase ≠ .held → s.EndsBy i →
      ∃ u, exec i s = .next u ∧ t.ends = u.ends ∧ ∀ a, t.readMem a = u.readMem a) ∧
    ∀ a, s.phase = .ready → s.owner = .passed → s.cycles = [.read a false] → s.map.region a = .outside →
      t.ends = s.ends ++ [.prdyWord (s.readMem a)] ∧ ∀ b, t.readMem b = s.readMem b

/-- While MRST is active a processor cycle ends with PBERR at once and changes nothing else (R162). MRST_RELEASE samples LOADCFG: low, the preset layout with threshold 6, config fault clear, and READY; high, LOADING with no word
taken. The words the rule lists, and no others, lie in no region of the preset layout (R156). -/
def Obligations.HeldUntilMrstRelease : Prop :=
  (∀ (s : State) (write : Bool) (a v : Word), s.phase = .held →
    exec (.cycleWhileMrst write a v) s = .next { s with ends := [.pberr] }) ∧
  (∀ s : State, s.phase = .held →
    exec (.mrstRelease false) s = .next
      { s with
        phase := .ready, threshold := 6, configFault := false,
        map := { order := 0xF000, cells := 0xF080, calls := 0xF100, meter := 0xF400, ticket := 0xE000, code := 5 } } ∧
    exec (.mrstRelease true) s = .next { s with phase := .loading [] }) ∧
  ∀ a : Word, RegionMap.preset.region a = .outside ↔
    a.toNat ≤ 0xDFFF ∨ (0xF090 ≤ a.toNat ∧ a.toNat ≤ 0xF0FF) ∨ (0xF200 ≤ a.toNat ∧ a.toNat ≤ 0xF3FF) ∨ 0xF800 ≤ a.toNat

/-- PARTIAL_RESET with the port unowned: a stretched order write ends with PBERR, the read pair, the grant count, a SET METER not yet
granted, the order slots, queues and bindings, the reports and the stickies are cleared, and everything else is kept (R153, R167,
R168, R169, R171). With a sequence or an order write owning the port its end event is taken first, and the reset clears the same of what
that event leaves (R97, R109, R141, R153, R167; a posting's reads meet no MPERR, assumption log 33). A passed read whose access is under way
completes it first (R167). ATTN is inactive after it (R170). -/
def Obligations.PartialResetClearsOrdersAndReports : Prop :=
  (∀ (s : State) (e : List CycleEnd), s.phase ≠ .held → s.owner = .none →
    ((s.stretch = .none ∧ s.cycles = [] ∧ e = []) ∨ (∃ n c, s.stretch = .held n ∧ s.cycles = [c] ∧ e = [.pberr])) →
    ∃ t, exec .partialReset s = .next t ∧
      State.ArbiterOnly
        { s with
          ends := s.ends ++ e, cycles := [], stretch := .none, readPair := none, setMeterJob := none,
          slots := t.slots, orderQueue := [], results := [], dispatcher := .ready, records := t.records,
          reports := [], latch := none, reportsLost := false, memoryError := false, guardedWrite := false } t ∧
      t.grantCount = 0 ∧ t.attnActive = false ∧ (∀ i, t.slot i = { state := .idle, w0 := 0, w1 := 0, w2 := 0 }) ∧
      ∀ x, t.record x = { s.record x with boundSlot := none }) ∧
  (∀ (s : State) (a : Word), s.phase = .ready → s.stretch = .none → s.owner = .passed → s.cycles = [.read a false] →
    s.map.region a = .outside →
    ∃ t, exec .partialReset s = .next t ∧
      State.ArbiterOnly
        { s with
          ends := s.ends ++ [.prdyWord (s.readMem a)], cycles := [], readPair := none, setMeterJob := none,
          slots := t.slots, orderQueue := [], results := [], dispatcher := .ready, records := t.records,
          reports := [], latch := none, reportsLost := false, memoryError := false, guardedWrite := false } t ∧
      (∀ i, t.slot i = { state := .idle, w0 := 0, w1 := 0, w2 := 0 }) ∧
      ∀ x, t.record x = { s.record x with boundSlot := none }) ∧
  ∀ (s : State) (i : Instr), s.phase ≠ .held → s.stretch = .none → s.EndsBy i →
    ∃ t u, exec i s = .next u ∧ exec .partialReset s = .next t ∧
      State.ArbiterOnly
        { u with
          readPair := none, setMeterJob := none, slots := t.slots, orderQueue := [], results := [], dispatcher := .ready,
          records := t.records, reports := [], latch := none, reportsLost := false, memoryError := false,
          guardedWrite := false } t ∧
      (∀ i, t.slot i = { state := .idle, w0 := 0, w1 := 0, w2 := 0 }) ∧
      ∀ x, t.record x = { u.record x with boundSlot := none }

/-- CONFIGURATION_WORD in LOADING: the cycle ends with PRDY, the call store is not written, the first five words are kept in their
order, and the sixth word's set is checked: valid, it is installed; invalid, the preset layout is, with the config fault (R157,
R158). -/
def Obligations.ConfigurationWordTaken : Prop :=
  ∀ (s : State) (a v : Word) (taken : List Word), s.phase = .loading taken → s.PortFree → taken.length ≤ 5 →
    ∃ t, exec (.configurationWord a v) s = .next t ∧
      State.ArbiterOnly
        { s with ends := [.prdy], readPair := none, phase := t.phase, map := t.map, threshold := t.threshold,
                 configFault := t.configFault } t ∧
      (taken.length < 5 → t.phase = .loading (taken ++ [v]) ∧ t.map = s.map ∧ t.threshold = s.threshold
        ∧ t.configFault = s.configFault) ∧
      ∀ o ce ca m ti : Word, taken = [o, ce, ca, m, ti] →
        t.phase = .ready ∧
        let code := v.toNat % 8
        let threshold := v.toNat / 16 % 16
        let map : RegionMap := { order := o, cells := ce, calls := ca, meter := m, ticket := ti, code := code }
        if code ≤ 5 ∧ 1 ≤ threshold ∧ threshold ≤ 8 ∧ o.toNat % 128 = 0 ∧ ce.toNat % 16 = 0 ∧ ca.toNat % 256 = 0
            ∧ m.toNat % 1024 = 0 ∧ ti.toNat % (128 * 2 ^ code) = 0 ∧ allApart map.runs = true then
          t.map = map ∧ t.threshold = threshold ∧ t.configFault = s.configFault
        else t.map = RegionMap.preset ∧ t.threshold = 6 ∧ t.configFault = true

/-- In a valid map each region's words resolve to it at their offsets, so no word lies in two regions (R155). -/
def Obligations.ValidMapResolvesRegions : Prop :=
  ∀ (m : RegionMap) (threshold : Nat), configValid m threshold = true →
    (∀ off, off < 128 → m.region (regionAddr m.order off) = .order off) ∧
    (∀ off, off < 16 → m.region (regionAddr m.cells off) = .cells off) ∧
    (∀ off, off < 256 → m.region (regionAddr m.calls off) = .calls off) ∧
    (∀ off, off < 1024 → m.region (regionAddr m.meter off) = .meter off) ∧
    (∀ off, off < 128 * 2 ^ m.code → m.region (regionAddr m.ticket off) = .ticket off)

/-! ## Processor cycles -/

/-- PASSED_READ and METER_WORD0_READ: a read passed to memory returns its word with PRDY, or on MPERR ends with PBERR and sets the
memory-error sticky. It closes the read pair, but for a read of word 0 of a line's meter record, which opens the pair on that
line either way; nothing else changes. Passed reads are every read in LOADING, and in READY a read in no region, in ORDER or
TICKET, or in METER (R106, R157, R159, R162, R166). A read that memory completes in a later event owns the port from its grant, for the two
CLK periods of its access, and has not ended; the pair of a word-0 read is open from that grant, an open pair stays until the end (R106,
R162; that the command says when memory completes is the model's choice, assumption log 7; that a pair on another line moves at the grant is
its inference, log 34). -/
def Obligations.PassedReadAnswers : Prop :=
  (∀ (s : State) (a : Word) (mperr : Bool), s.PortFree →
    ((∃ taken, s.phase = .loading taken) ∨
      (s.phase = .ready ∧
        (s.map.region a = .outside ∨ (∃ off, s.map.region a = .order off) ∨ (∃ off, s.map.region a = .ticket off)
          ∨ ∃ off, s.map.region a = .meter off ∧ off % 2 = 1))) →
    (∃ t, exec (.passedRead a ⟨mperr, false⟩) s = .next t ∧
      State.ArbiterOnly
        { s with ends := [if mperr then .pberr else .prdyWord (s.readMem a)], readPair := none,
                 memoryError := s.memoryError || mperr } t) ∧
    ∃ t, exec (.passedRead a ⟨mperr, true⟩) s = .next t ∧ s.OwnsPort t (.read a mperr) s.readPair) ∧
  ∀ (s : State) (l : Line) (mperr : Bool), s.PortFree → s.phase = .ready → s.MapInv →
    let a := s.map.meter + BitVec.ofNat 16 (2 * l.val)
    (∃ t, exec (.meterWord0Read l ⟨mperr, false⟩) s = .next t ∧
      State.ArbiterOnly
        { s with ends := [if mperr then .pberr else .prdyWord (s.readMem a)],
                 readPair := some l, memoryError := s.memoryError || mperr } t) ∧
    ∃ t, exec (.meterWord0Read l ⟨mperr, true⟩) s = .next t ∧ s.OwnsPort t (.read a mperr) (some l)

/-- PASSED_WRITE and GUARDED_WRITE in READY. A write in no region, in CELLS at an offset other than 4, or to word 3 of an order slot with bit 15
set, is carried to memory and ends with PRDY; every other word of the call store, and all else, is unchanged (R144, R159, R162). A write to
CALLS, METER or TICKET ends with PBERR, is not passed, sets the guarded-write sticky, closes the read pair, and changes no other state
(R161). A write that memory completes in a later event owns the port from its grant, with nothing written yet (R162; assumption log 7). -/
def Obligations.WritesPassedOrGuarded : Prop :=
  (∀ (s : State) (a v : Word), s.PortFree → s.phase = .ready → s.StoreInv →
    (s.map.region a = .outside ∨ (∃ off, s.map.region a = .cells off ∧ off ≠ 4)
      ∨ ∃ off, s.map.region a = .order off ∧ off % 4 = 3 ∧ v.getLsbD 15 = true) →
    (∃ t, exec (.passedWrite a ⟨v, false⟩) s = .next t ∧
      State.ArbiterOnly { s with ends := [.prdy], readPair := none, mem := t.mem } t ∧
      t.readMem a = v ∧ ∀ b, b ≠ a → t.readMem b = s.readMem b) ∧
    ∃ t, exec (.passedWrite a ⟨v, true⟩) s = .next t ∧ s.OwnsPort t (.write a v) s.readPair) ∧
  ∀ (s : State) (a v : Word), s.PortFree → s.phase = .ready →
    ((∃ off, s.map.region a = .calls off) ∨ (∃ off, s.map.region a = .meter off) ∨ ∃ off, s.map.region a = .ticket off) →
    ∃ t, exec (.guardedWrite a v) s = .next t ∧
      State.ArbiterOnly { s with ends := [.pberr], readPair := none, guardedWrite := true } t

/-- Reads of the other cells and of the CALLS view are served from the 716's state with PRDY and change nothing but the read pair: the latched
report's word B, W and full, Rd, the week minute, the second and band, the hold queue's count, and 0 at the offsets that hold nothing; of a
circuit, the state code, kind and flags, its calling and called number or 0xFFFF, and its paid count, whatever the command's row name and the
memory's parity. Word B is the detail of the latched report: the band of ANSWER and BAND CHANGE, the cause of CLEAR, the owed count of PAY
TONE, the coordinates and cause of CROSSPOINT FAULT, the link of LINK OUT, the fault of METER FAULT, the value of TICKET INDEX ERROR, else 0 (R87, R138, R160, R169, R172, sections 11.5 to 11.7; the classification by address is assumption log 9). -/
def Obligations.ServedReadsShowState : Prop :=
  ∀ (s : State) (a : Word) (mperr later : Bool), s.PortFree → s.phase = .ready → s.CountInv → s.QueueInv → s.writeIndex < 512 →
    s.readIndex < 512 →
    (∀ off, s.map.region a = .cells off → 2 ≤ off →
      ∃ t w, exec (.passedRead a ⟨mperr, later⟩) s = .next t ∧
        State.ArbiterOnly { s with ends := [.prdyWord w], readPair := none } t ∧
        (off = 2 →
          match s.latch with
          | none => w = 0
          | some (.answer _ b) => w.toNat = b.val
          | some (.clear _ c) =>
            w.toNat = (match c with | .callerClear => 1 | .calledClear => 2 | .order => 3 | .credit => 4 | .pathFault => 5)
          | some (.seize _) => w = 0
          | some (.abandon _) => w = 0
          | some (.calledClear _) => w = 0
          | some (.reAnswer _) => w = 0
          | some (.payTone _ n) => n ≤ 127 → w.toNat = n
          | some (.crosspointFault xp c) =>
            (match xp with
              | .a _ p k => w.toNat % 32 = p.val ∧ w.toNat / 32 % 8 = 0 ∧ w.toNat / 256 % 16 = k.val
              | .b _ g j => w.toNat % 16 = g.val ∧ w.toNat / 16 % 16 = 0 ∧ w.toNat / 256 % 16 = j.val) ∧
            w.toNat / 4096 = (match c with | .fail => 0 | .makeTimeout => 1 | .breakTimeout => 2)
          | some (.linkOut _ k) => w.toNat = k.val
          | some (.meterFault _ f) =>
            (f = .parity → w = 1) ∧ (f = .corrupt → w = 2) ∧ (f = .saturated → w = 3)
          | some (.ticketIndexError v) => w = v
          | some (.bandChange b) => w.toNat = b.val) ∧
        (off = 3 → w.toNat = s.writeIndex + if s.ringFull then 32768 else 0) ∧
        (off = 4 → w.toNat = s.readIndex) ∧ (off = 5 → w.toNat = s.weekMinute) ∧
        (off = 6 → w.toNat = s.second + 256 * s.band.val) ∧ (off = 7 → w.toNat = s.holdQueue.length) ∧
        (8 ≤ off → w = 0)) ∧
    ∀ off, s.map.region a = .calls off →
      ∃ t w, exec (.passedRead a ⟨mperr, later⟩) s = .next t ∧
        State.ArbiterOnly { s with ends := [.prdyWord w], readPair := none } t ∧
        (224 ≤ off → w = 0) ∧
        ∀ x : Circuit, let r := s.record x
          (off = 4 * x.val → w.toNat % 16 = r.state.code ∧
            r.state.code = (match r.state with
              | .free => 0 | .guarded => 1 | .seized => 2 | .reserved => 3 | .setting => 4 | .ringing => 5 | .answered => 6
              | .clearing => 7 | .closing => 8) ∧
            w.toNat / 16 % 4 = (if x.val < 24 then 0 else if x.val < 48 then 1 else 2) ∧
            w.getLsbD 6 = r.coin ∧ w.getLsbD 7 = r.ticket ∧ w.getLsbD 8 = r.calledClear.isSome ∧
            w.getLsbD 9 = r.grace.isSome ∧ w.getLsbD 10 = !s.circuitInService[x] ∧ w.getLsbD 11 = false ∧
            (r.stamp = none → w.toNat / 4096 = 0) ∧ ∀ st, r.stamp = some st → w.toNat / 4096 = st.band.val) ∧
          (off = 4 * x.val + 1 → w.toNat = match r.calling with | some l => l.val | none => 0xFFFF) ∧
          (off = 4 * x.val + 2 → w.toNat =
            match r.called with | some (.line l) => l.val | some (.junction n) => n.val | none => 0xFFFF) ∧
          (off = 4 * x.val + 3 → w.toNat = r.paid)

/-- STATUS_READ returns the indications in the bits section 11.6 gives them, as they stood, and then clears the three stickies
(R171). -/
def Obligations.StatusReadShowsAndClears : Prop :=
  ∀ s : State, s.PortFree → s.phase = .ready → s.MapInv →
    ∃ t w, exec .statusRead s = .next t ∧
      State.ArbiterOnly
        { s with ends := [.prdyWord w], readPair := none, reportsLost := false, memoryError := false,
                 guardedWrite := false } t ∧
      w.getLsbD 0 = true ∧ w.getLsbD 1 = s.configFault ∧ w.getLsbD 2 = decide (s.threshold ≤ s.orderQueue.length) ∧
      w.getLsbD 3 = decide (s.reports ≠ []) ∧ w.getLsbD 4 = s.reportsLost ∧ w.getLsbD 5 = s.ringFull ∧
      w.getLsbD 6 = decide (8 ≤ s.holdQueue.length) ∧ w.getLsbD 7 = s.timeUnset ∧
      (w.extractLsb' 8 2).toNat = s.band.val ∧ w.getLsbD 10 = s.memoryError ∧ w.getLsbD 11 = s.guardedWrite ∧
      w.extractLsb' 12 4 = 0

/-- REPORT_A_READ pops the head report into the latch and returns its kind in bits 12 to 15 and its subject in bits 0 to 8; with the
queue empty it empties the latch and returns 0 (R169, section 11.5). The kinds are numbered 1 to 12 in the order ANSWER, CLEAR, SEIZE,
ABANDON, CALLED CLEAR, RE-ANSWER, PAY TONE, CROSSPOINT FAULT, LINK OUT, METER FAULT, TICKET INDEX ERROR, BAND CHANGE (section 10.1); the subject
is the circuit, the line group, the line, a crosspoint's stage in bit 8 with its switch in bits 0 to 3, or 0. ATTN follows the report queue:
it is active after the read while a report is left, and the read of the last report makes it inactive (R170). -/
def Obligations.ReportAReadPops : Prop :=
  ∀ s : State, s.PortFree → s.phase = .ready → s.MapInv →
    ∃ t w, exec .reportARead s = .next t ∧
      State.ArbiterOnly
        { s with ends := [.prdyWord w], readPair := none, reports := s.reports.tail, latch := s.reports.head? } t ∧
      (s.attnActive = true ↔ s.reports ≠ []) ∧ (t.attnActive = true ↔ 1 < s.reports.length) ∧
      (s.reports = [] → w = 0) ∧
      ∀ r rest, s.reports = r :: rest →
        (w.extractLsb' 12 4).toNat = r.code ∧ (w.extractLsb' 0 9).toNat = r.subject ∧ w.extractLsb' 9 3 = 0 ∧
        (r.code, r.subject) =
          match r with
          | .answer x _ => (1, x.val)
          | .clear x _ => (2, x.val)
          | .seize x => (3, x.val)
          | .abandon x => (4, x.val)
          | .calledClear x => (5, x.val)
          | .reAnswer x => (6, x.val)
          | .payTone x _ => (7, x.val)
          | .crosspointFault (.a g _ _) _ => (8, g.val)
          | .crosspointFault (.b k _ _) _ => (8, 256 + k.val)
          | .linkOut g _ => (9, g.val)
          | .meterFault l _ => (10, l.val)
          | .ticketIndexError _ => (11, 0)
          | .bandChange _ => (12, 0)

/-- READ_INDEX_WRITE: the value is passed to memory with PRDY and judged: N or more, or consuming more than is unread, TICKET INDEX ERROR
with the value as detail; equal to Rd, full is cleared; otherwise Rd takes it and full is cleared (R136). The report enters a
queue that has a place; at 32 reports it is dropped and the reports-lost sticky is set (R168). A write that memory completes in a later event
owns the port from its grant, not yet written or judged (R162; assumption log 7). -/
def Obligations.ReadIndexWriteJudged : Prop :=
  ∀ (s : State) (v : Word), s.PortFree → s.phase = .ready → s.MapInv → s.StoreInv →
    (∃ t, exec (.readIndexWrite ⟨v, true⟩) s = .next t ∧ s.OwnsPort t (.write (s.map.cells + 4) v) s.readPair) ∧
    ∃ t, exec (.readIndexWrite ⟨v, false⟩) s = .next t ∧
      State.ArbiterOnly
        { s with ends := [.prdy], readPair := none, mem := t.mem, readIndex := t.readIndex, ringFull := t.ringFull,
                 reports := t.reports, reportsLost := t.reportsLost } t ∧
      t.readMem (s.map.cells + 4) = v ∧ (∀ b, b ≠ s.map.cells + 4 → t.readMem b = s.readMem b) ∧
      let n := 16 * 2 ^ s.map.code
      let unread := if s.ringFull then n else (s.writeIndex + n - s.readIndex) % n
      let a := (v.toNat + n - s.readIndex) % n
      if n ≤ v.toNat ∨ (a ≠ 0 ∧ unread < a) then
        (s.reports.length < 32 → t.reports = s.reports ++ [.ticketIndexError v] ∧ t.reportsLost = s.reportsLost) ∧
        (32 ≤ s.reports.length → t.reports = s.reports ∧ t.reportsLost = true) ∧
        t.readIndex = s.readIndex ∧ t.ringFull = s.ringFull
      else t.reports = s.reports ∧ t.reportsLost = s.reportsLost ∧ t.readIndex = (if a = 0 then s.readIndex else v.toNat) ∧ t.ringFull = false

/-- ARGUMENT_WORD_WRITE is passed to memory in every slot state, and captured into the same word of the staging copy when the slot is
IDLE; otherwise the staging copy is unchanged (R143). A write that memory completes in a later event owns the port from its grant, not yet
written or captured (R162; assumption log 7). -/
def Obligations.ArgumentWordCaptured : Prop :=
  ∀ (s : State) (i : OrderSlot) (w : Fin 3) (v : Word), s.PortFree → s.phase = .ready → s.MapInv → s.StoreInv →
    let a := s.map.order + BitVec.ofNat 16 (4 * i.val + w.val)
    (∃ t, exec (.argumentWordWrite i w ⟨v, true⟩) s = .next t ∧ s.OwnsPort t (.write a v) s.readPair) ∧
    ∃ t, exec (.argumentWordWrite i w ⟨v, false⟩) s = .next t ∧
      State.ArbiterOnly { s with ends := [.prdy], readPair := none, mem := t.mem, slots := t.slots } t ∧
      t.readMem a = v ∧ (∀ b, b ≠ a → t.readMem b = s.readMem b) ∧
      (∀ j, j ≠ i → t.slot j = s.slot j) ∧
      t.slot i =
        if (s.slot i).state = .idle then
          { s.slot i with
            w0 := if w = 0 then v else (s.slot i).w0, w1 := if w = 1 then v else (s.slot i).w1,
            w2 := if w = 2 then v else (s.slot i).w2 }
        else s.slot i

/-- ORDER_WORD_WRITE is judged by bit 15, the slot's state and the order queue: with bit 15 set it is passed and no order is taken; to
an IDLE slot with a place in the queue it goes to memory under the processor's ownership of the port; with 8 entries it is
stretched for 164 periods; to a busy slot it ends with PBERR and the guarded-write sticky (R144, R146). A passed one that memory completes in a
later event owns the port from its grant (R162; assumption log 7). -/
def Obligations.OrderWordJudged : Prop :=
  ∀ (s : State) (i : OrderSlot) (v : Word) (later : Bool), s.PortFree → s.phase = .ready → s.MapInv → s.StoreInv →
    let a := s.map.order + BitVec.ofNat 16 (4 * i.val + 3)
    ∃ t, exec (.orderWordWrite i ⟨v, later⟩) s = .next t ∧
      (v.getLsbD 15 = true → later = true → s.OwnsPort t (.write a v) s.readPair) ∧
      (v.getLsbD 15 = true → later = false →
        State.ArbiterOnly { s with ends := [.prdy], readPair := none, mem := t.mem } t ∧
        t.readMem a = v ∧ ∀ b, b ≠ a → t.readMem b = s.readMem b) ∧
      (v.getLsbD 15 = false → (s.slot i).state ≠ .idle →
        State.ArbiterOnly { s with ends := [.pberr], readPair := none, guardedWrite := true } t) ∧
      (v.getLsbD 15 = false → (s.slot i).state = .idle → s.orderQueue.length < 8 →
        State.ArbiterOnly { s with ends := [], cycles := [.write a v] } t ∧ t.owner = .processor) ∧
      (v.getLsbD 15 = false → (s.slot i).state = .idle → 8 ≤ s.orderQueue.length →
        State.ArbiterOnly { s with ends := [], cycles := [.write a v], stretch := .held 164 } t)

/-- The two ends of an order write. ORDER_TAKEN, with the dispatcher waiting: the order word stands in memory, an entry with the slot, the kind
in bits 0 to 4 and the staging copy stands at the tail of the queue, the slot is QUEUED, and the cycle ends with PRDY (R145); whatever the
dispatcher, the event leaves what the order's own command leaves on the state with the word stored and the cycle ended (R145, R148;
assumption log 5 for the order commands). STRETCH_TIMER_EXPIRY: the held cycle ends with PBERR, is not passed, and sets the guarded-write
sticky; no order is taken, and slot and memory are as they were (R146). -/
def Obligations.OrderWriteEnds : Prop :=
  (∀ (s : State) (a v : Word) (off : Nat) (j : OrderSlot), s.phase = .ready → s.StoreInv → s.owner = .processor →
    s.cycles = [.write a v] → s.map.region a = .order off → s.orderQueue.length < 8 → s.dispatcher = .waiting j →
    (s.slot (offsetSlot off)).state = .idle →
    ∃ t, exec .orderTaken s = .next t ∧
      State.ArbiterOnly
        { s with
          ends := s.ends ++ [.prdy], cycles := [], readPair := none, stretch := .none, mem := t.mem, slots := t.slots,
          orderQueue := s.orderQueue ++
            [{ slot := offsetSlot off, kind := v.extractLsb' 0 5, w0 := (s.slot (offsetSlot off)).w0,
               w1 := (s.slot (offsetSlot off)).w1, w2 := (s.slot (offsetSlot off)).w2 }] } t ∧
      t.readMem a = v ∧ (∀ b, b ≠ a → t.readMem b = s.readMem b) ∧
      ∀ i, t.slot i = if i = offsetSlot off then { s.slot i with state := .queued } else s.slot i) ∧
  (∀ (s : State) (a v : Word) (off : Nat) (i : Instr), s.phase = .ready → s.owner = .processor → s.cycles = [.write a v] →
    s.map.region a = .order off → s.orderQueue.length < 8 → (s.slot (offsetSlot off)).state = .idle →
    s.entryOf i = some
      { slot := offsetSlot off, kind := v.extractLsb' 0 5, w0 := (s.slot (offsetSlot off)).w0,
        w1 := (s.slot (offsetSlot off)).w1, w2 := (s.slot (offsetSlot off)).w2 } →
    exec .orderTaken s = exec i
      { s with
        ends := s.ends ++ [.prdy], cycles := [], readPair := none, stretch := .none, owner := .none, accessLeft := 0,
        mem := (s.writeMem a v).mem }) ∧
  ∀ (s : State) (n : Nat) (c : Cycle), s.phase ≠ .held → s.stretch = .held n → s.cycles = [c] →
    ∃ t, exec .stretchTimerExpiry s = .next t ∧
      State.ArbiterOnly
        { s with ends := s.ends ++ [.pberr], cycles := [], readPair := none, stretch := .none, guardedWrite := true } t

/-- The arbiter's choice at a port without owner and without a processor cycle: a result write, then a ticket burst, then a SET METER whose
line has no open read pair, then a posting; a posting takes its line's whole pending count and never takes a line with an open read
pair, with nothing pending, or with fault PARITY or CORRUPT (R98, R108, R134, R163). A SET METER whose line has an open read pair is passed
over (R108). The poster takes its retry line if that is eligible, the pointer not moved; else the first eligible line from the pointer
upward, 511 followed by 0, and the pointer passes it (R98). A grant handed back unused withdraws the request (R98, R163). Every grant of
the 716 makes the grant count 0 (R164). Against the processor: a read that arrives while a result waits is
granted before the 716 while the grant count is below 8, and waits behind the result write at a count of 8; the count rises by 1 in such a
grant, and becomes 0 in a grant with nothing of the 716 waiting (R163, R164). A read that waited owns the port from its grant, for the two CLK
periods of its access, the pair of a word-0 read open from that grant (R106, R162; a pair on another line moves with it, assumption log 34). The next cycle of the processor ends a passed read
that owns the port, and is weighed with the 716's requests in that event (section 9.7; assumption log 8). -/
def Obligations.ArbiterGrantsInOrder : Prop :=
  (∀ s : State, s.phase = .ready → s.cycles = [] → s.owner = .none → s.burst = .idle →
    (s.askPort.owner ≠ .none → s.askPort.grantCount = 0) ∧
    (s.results ≠ [] → s.askPort.owner = .resultWrite) ∧
    (s.results = [] → s.holdQueue ≠ [] → s.ringFull = false → s.askPort.owner = .ticketBurst) ∧
    (∀ j, s.results = [] → (s.holdQueue = [] ∨ s.ringFull = true) → s.setMeterJob = some j → s.readPair ≠ some j.line →
      s.askPort.owner = .setMeter) ∧
    (s.results = [] → (s.holdQueue = [] ∨ s.ringFull = true) → s.setMeterJob = none →
      (∀ p, s.askPort.owner = .posting p →
        p.pulses = (s.line p.line).pulses ∧ p.pulses ≠ 0 ∧ s.readPair ≠ some p.line ∧
        ((s.line p.line).fault = .none ∨ (s.line p.line).fault = .saturated)) ∧
      ((∃ l, (s.line l).pulses ≠ 0 ∧ s.readPair ≠ some l ∧
          ((s.line l).fault = .none ∨ (s.line l).fault = .saturated)) → ∃ p, s.askPort.owner = .posting p) ∧
      ((∀ l, (s.line l).pulses = 0 ∨ s.readPair = some l ∨ (s.line l).fault = .parity ∨ (s.line l).fault = .corrupt) →
        s.askPort.owner = .none))) ∧
  (∀ s : State, s.phase = .ready → s.cycles = [] → s.owner = .none → s.burst = .idle → s.results = [] →
    (s.holdQueue = [] ∨ s.ringFull = true) → (∀ j, s.setMeterJob = some j → s.readPair = some j.line) →
    let eligible : Line → Prop := fun l =>
      (s.line l).pulses ≠ 0 ∧ s.readPair ≠ some l ∧ ((s.line l).fault = .none ∨ (s.line l).fault = .saturated)
    (∀ l, s.retryLine = some l → eligible l →
      s.askPort.owner = .posting { line := l, pulses := (s.line l).pulses, attempt := .retry } ∧
      s.askPort.retryLine = none ∧ s.askPort.postPointer = s.postPointer) ∧
    (∀ n : Line, (∀ l, s.retryLine = some l → ¬ eligible l) → eligible (s.postPointer + n) →
      (∀ m, m < n → ¬ eligible (s.postPointer + m)) →
      s.askPort.owner =
        .posting { line := s.postPointer + n, pulses := (s.line (s.postPointer + n)).pulses, attempt := .first } ∧
      s.askPort.postPointer = s.postPointer + n + 1 ∧ s.askPort.retryLine = s.retryLine) ∧
    ((∀ l, ¬ eligible l) →
      s.askPort.owner = .none ∧ s.askPort.meterRequest = false ∧ (s.meterRequest = true → s.askPort.grantCount = 0))) ∧
  (∀ (s : State) (a : Word) (mperr : Bool), s.phase = .ready → s.cycles = [.read a mperr] → s.owner = .none → s.stretch = .none →
    s.grantCount < 8 →
    (s.map.region a = .outside →
      s.askPort.owner = .passed ∧ s.askPort.accessLeft = 2 ∧ s.askPort.cycles = s.cycles ∧ s.askPort.ends = s.ends ∧
      s.askPort.readPair = s.readPair) ∧
    ∀ l : Line, s.map.region a = .meter (2 * l.val) →
      s.askPort.owner = .passed ∧ s.askPort.accessLeft = 2 ∧ s.askPort.cycles = s.cycles ∧ s.askPort.ends = s.ends ∧
      s.askPort.readPair = some l) ∧
  (∀ (s : State) (a b : Word), s.phase = .ready → s.owner = .passed → s.cycles = [.read a false] → s.results ≠ [] →
    s.map.region a = .outside → s.map.region b = .outside →
    ∃ t, exec (.passedRead b ⟨false, true⟩) s = .next t ∧ t.ends = [.prdyWord (s.readMem a)] ∧ t.cycles = [.read b false] ∧
      (s.grantCount < 8 → t.owner = .passed ∧ t.accessLeft = 2 ∧ t.grantCount = s.grantCount + 1) ∧
      (8 ≤ s.grantCount → t.owner = .resultWrite ∧ t.grantCount = 0)) ∧
  (∀ (s : State) (a : Word), s.PortFree → s.phase = .ready → s.map.region a = .outside →
    ∃ t, exec (.passedRead a ⟨false, true⟩) s = .next t ∧ t.owner = .passed ∧
      (s.results ≠ [] → t.grantCount = s.grantCount + 1) ∧
      (s.results = [] → s.burst = .idle → (s.holdQueue = [] ∨ s.ringFull = true) → s.meterRequest = false →
        (∀ j, s.setMeterJob = some j → s.readPair = some j.line) →
        (∀ l, (s.line l).pulses = 0 ∨ s.readPair = some l ∨ (s.line l).fault = .parity ∨ (s.line l).fault = .corrupt) →
        t.grantCount = 0)) ∧
  ∀ (s : State) (a : Word), s.phase = .ready → s.cycles = [] → s.owner = .none → s.stretch = .none → s.results ≠ [] →
    s.map.region a = .outside →
    ∃ t, exec (.passedRead a ⟨false, false⟩) s = .next t ∧ t.owner = .resultWrite ∧ t.grantCount = 0 ∧
      (s.grantCount < 8 → t.ends = [.prdyWord (s.readMem a)] ∧ t.cycles = []) ∧
      (8 ≤ s.grantCount → t.ends = [] ∧ t.cycles = [.read a false])

/-! ## Orders: taking and dispatching -/

/-- An order given while the dispatcher waits is queued with its kind and words, and its slot becomes QUEUED (R145, R148). An order that
finds its slot busy or the queue full is not taken and changes nothing (the model's choice, assumption log 5: the bus then refuses or
stretches its order word, R144). -/
def Obligations.OrderQueuedOrNotTaken : Prop :=
  ∀ (s : State) (i : Instr) (e : OrderEntry), s.entryOf i = some e → s.phase = .ready →
    (∀ j, (s.slot e.slot).state = .idle → s.orderQueue.length < 8 → s.dispatcher = .waiting j → s.cycles = [] →
      s.stretch = .none → s.owner ≠ .processor →
      ∃ t, exec i s = .next t ∧
        State.ArbiterOnly { s with slots := t.slots, orderQueue := s.orderQueue ++ [e] } t ∧
        ∀ k, t.slot k = if k = e.slot then { s.slot k with state := .queued } else s.slot k) ∧
    ((s.slot e.slot).state ≠ .idle ∨ 8 ≤ s.orderQueue.length → exec i s = .next s)

/-- BAD_ORDER: an order of a kind outside 1 to 13 is answered BAD ORDER with circuit 63 whatever its words, and the dispatcher waits on
its slot (R148, R150). -/
def Obligations.BadOrderAnswered : Prop :=
  ∀ (s : State) (i : OrderSlot) (kind : BitVec 5) (w0 w1 w2 : Word), kind.toNat = 0 ∨ 13 < kind.toNat → s.OrderFree i →
    ∃ t, exec (.badOrder i kind w0 w1 w2) s = .next t ∧ State.ArbiterOnly (s.answered i .badOrder none) t

/-! ## Orders: connections -/

/-- The crosspoints of a path, in make order, with its links and terminals: a local call from line A to line B on cord c uses A(gA, pA, k0),
B(k0, gA, j0), A(gB, pB, k1), B(k1, gB, j1) with k0 = 2c mod 10, j0 = 2c div 10, k1 = (2c + 1) mod 10, j1 = (2c + 1) div 10, the links
(gA, k0) and (gB, k1), which are never one link, and the terminals 2c and 2c + 1 (R3); an outgoing call A(g, p, k), B(k, g, j) and an
incoming call B(k, g, j), A(g, p, k) with t = x + 24, k = t mod 10, j = t div 10, the link (g, k) and the terminal t (R4). -/
def Obligations.PathsOfCalls : Prop :=
  (∀ (c : Cord) (a b : Line), ∃ (gA gB : LineGroup) (pA pB : Position) (k0 k1 : LinkNo) (j0 j1 : Outlet) (t0 t1 : Terminal),
    gA.val = a.val / 32 ∧ pA.val = a.val % 32 ∧ gB.val = b.val / 32 ∧ pB.val = b.val % 32 ∧
    k0.val = 2 * c.val % 10 ∧ j0.val = 2 * c.val / 10 ∧ k1.val = (2 * c.val + 1) % 10 ∧ j1.val = (2 * c.val + 1) / 10 ∧
    localPath c a b
      = [⟨.a gA pA k0, .unmade⟩, ⟨.b k0 gA j0, .unmade⟩, ⟨.a gB pB k1, .unmade⟩, ⟨.b k1 gB j1, .unmade⟩] ∧
    (localPath c a b).map (fun q => crosspointLink q.xp) = [(gA, k0), (gA, k0), (gB, k1), (gB, k1)] ∧ (gA, k0) ≠ (gB, k1) ∧
    j1 = j0 ∧ t0.val = 2 * c.val ∧ t1.val = 2 * c.val + 1 ∧ circuitTerminals (cordCircuit c) = [t0, t1]) ∧
  ∀ (x : Circuit) (l : Line), 24 ≤ x.val → ∃ (g : LineGroup) (p : Position) (k : LinkNo) (j : Outlet) (t : Terminal),
    g.val = l.val / 32 ∧ p.val = l.val % 32 ∧ t.val = x.val + 24 ∧ k.val = t.val % 10 ∧ j.val = t.val / 10 ∧
    outgoingPath x l = [⟨.a g p k, .unmade⟩, ⟨.b k g j, .unmade⟩] ∧
    incomingPath x l = [⟨.b k g j, .unmade⟩, ⟨.a g p k, .unmade⟩] ∧
    (outgoingPath x l).map (fun q => crosspointLink q.xp) = [(g, k), (g, k)] ∧
    (incomingPath x l).map (fun q => crosspointLink q.xp) = [(g, k), (g, k)] ∧ circuitTerminals x = [t]

/-- The refusals of the three CONNECT orders, in the order of their checks: nothing changes but the order's slot, the result list and the
dispatcher (R28, R29, R30, R150). -/
def Obligations.ConnectRefusals : Prop :=
  (∀ (s : State) (i : OrderSlot) (a b : Line) (w0 w1 : Word), s.OrderFree i →
    ((512 ≤ w0.toNat ∨ 512 ≤ w1.toNat ∨ w0 = w1) →
      ∃ t, exec (.connectLocal i w0 w1) s = .next t ∧ State.ArbiterOnly (s.answered i .badArgument none) t) ∧
    ∀ code, a ≠ b → w0.toNat = a.val → w1.toNat = b.val →
      (if (s.line a).cls = .spare then some ResultCode.badLine
        else if (s.line a).cls = .incomingOnly then some .barred
        else if (s.line a).busy ≠ none then some .callerBusy
        else if (s.line b).cls = .spare then some .unobtainable
        else if (s.line b).busy ≠ none then some .calledBusy
        else if ((s.line a).cls = .coin ∨ (s.line a).cls = .detailed) ∧ 8 ≤ s.holdQueue.length then some .billingFull
        else none) = some code →
      ∃ t, exec (.connectLocal i w0 w1) s = .next t ∧ State.ArbiterOnly (s.answered i code none) t) ∧
  (∀ (s : State) (i : OrderSlot) (a : Line) (w0 w1 w2 : Word), s.OrderFree i →
    ((512 ≤ w0.toNat ∨ 3 ≤ w1.toNat ∨ w2.toNat < 1 ∨ 8 ≤ w2.toNat) →
      ∃ t, exec (.connectOutgoing i w0 w1 w2) s = .next t ∧ State.ArbiterOnly (s.answered i .badArgument none) t) ∧
    ∀ code, w0.toNat = a.val → w1.toNat < 3 → 1 ≤ w2.toNat → w2.toNat < 8 →
      (if (s.line a).cls = .spare then some ResultCode.badLine
        else if (s.line a).cls = .incomingOnly then some .barred
        else if (s.line a).busy ≠ none then some .callerBusy
        else if 8 ≤ s.holdQueue.length then some .billingFull
        else none) = some code →
      ∃ t, exec (.connectOutgoing i w0 w1 w2) s = .next t ∧ State.ArbiterOnly (s.answered i code none) t) ∧
  (∀ (s : State) (i : OrderSlot) (w0 w1 : Word), s.OrderFree i → 56 ≤ w0.toNat →
    ∃ t, exec (.connectIncoming i w0 w1) s = .next t ∧ State.ArbiterOnly (s.answered i .badArgument none) t) ∧
  ∀ (s : State) (i : OrderSlot) (x : Circuit) (b : Line) (w0 w1 : Word), s.OrderFree i → w0.toNat = x.val →
    ((x.val < 48 ∨ 512 ≤ w1.toNat) →
      ∃ t, exec (.connectIncoming i w0 w1) s = .next t ∧ State.ArbiterOnly (s.answered i .badArgument (some x)) t) ∧
    ∀ code, 48 ≤ x.val → w1.toNat = b.val →
      (if (s.record x).state ≠ .seized then some ResultCode.notActive
        else if (s.line b).cls = .spare then some .unobtainable
        else if (s.line b).busy ≠ none then some .calledBusy
        else none) = some code →
      ∃ t, exec (.connectIncoming i w0 w1) s = .next t ∧ State.ArbiterOnly (s.answered i code (some x)) t

/-- CONNECT_LOCAL that passes its checks: the first suitable cord from the cord pointer upward, 23 followed by 0, is chosen, the pointer
passes it, and the call is admitted on it; with no suitable cord the order gets CONGESTION and the pointer stays (R15, R16, R19, R28, R31,
R53). -/
def Obligations.ConnectLocalHunts : Prop :=
  ∀ (s : State) (i : OrderSlot) (a b : Line) (w0 w1 : Word), s.OrderFree i → a ≠ b → w0.toNat = a.val → w1.toNat = b.val →
    (s.line a).cls ≠ .spare → (s.line a).cls ≠ .incomingOnly → (s.line a).busy = none →
    (s.line b).cls ≠ .spare → (s.line b).busy = none →
    ((s.line a).cls = .coin ∨ (s.line a).cls = .detailed → s.holdQueue.length < 8) →
    (∀ n : Cord, s.cordSuitable a b (s.cordPtr + n) → (∀ m, m < n → ¬ s.cordSuitable a b (s.cordPtr + m)) →
      ∃ t, exec (.connectLocal i w0 w1) s = .next t ∧ t.cordPtr = s.cordPtr + n + 1 ∧ t.groupPtrs = s.groupPtrs ∧
        s.CallAdmitted t i (cordCircuit (s.cordPtr + n))
          { CallRecord.blank .reserved with
            calling := some a, called := some (.line b), distBand := 0, coin := decide ((s.line a).cls = .coin),
            detailed := decide ((s.line a).cls = .detailed),
            ticket := decide ((s.line a).cls = .coin ∨ (s.line a).cls = .detailed),
            boundSlot := some i, path := localPath (s.cordPtr + n) a b }) ∧
    ((∀ c, ¬ s.cordSuitable a b c) →
      ∃ t, exec (.connectLocal i w0 w1) s = .next t ∧ State.ArbiterOnly (s.answered i .congestion none) t)

/-- CONNECT_OUTGOING and CONNECT_INCOMING that pass their checks: the outgoing order takes the first suitable junction of its group from the
group's pointer upward, 7 followed by 0, and moves that pointer alone; the incoming order takes its own circuit if it is suitable, and moves
no pointer. With no suitable circuit the order gets CONGESTION (R17, R18, R19, R29, R30, R31, R53). -/
def Obligations.ConnectJunctionHunts : Prop :=
  (∀ (s : State) (i : OrderSlot) (a : Line) (g : JunctionGroup) (d : DistBand) (w0 w1 w2 : Word), s.OrderFree i →
    w0.toNat = a.val → w1.toNat = g.val → w2.toNat = d.val → d ≠ 0 →
    (s.line a).cls ≠ .spare → (s.line a).cls ≠ .incomingOnly → (s.line a).busy = none → s.holdQueue.length < 8 →
    (∀ n : Fin 8, s.junctionSuitable a g (s.groupPtrs[g] + n) → (∀ m, m < n → ¬ s.junctionSuitable a g (s.groupPtrs[g] + m)) →
      ∃ (t : State) (x : Circuit) (j : Junction), exec (.connectOutgoing i w0 w1 w2) s = .next t ∧
        x.val = 24 + 8 * g.val + (s.groupPtrs[g] + n).val ∧ j.val = x.val - 24 ∧ t.cordPtr = s.cordPtr ∧
        (∀ h : JunctionGroup, t.groupPtrs[h] = if h = g then s.groupPtrs[g] + n + 1 else s.groupPtrs[h]) ∧
        s.CallAdmitted t i x
          { CallRecord.blank .reserved with
            calling := some a, called := some (.junction j), distBand := d, coin := decide ((s.line a).cls = .coin),
            detailed := decide ((s.line a).cls = .detailed), ticket := true, boundSlot := some i,
            path := outgoingPath x a }) ∧
    ((∀ q, ¬ s.junctionSuitable a g q) →
      ∃ t, exec (.connectOutgoing i w0 w1 w2) s = .next t ∧ State.ArbiterOnly (s.answered i .congestion none) t)) ∧
  ∀ (s : State) (i : OrderSlot) (x : Circuit) (b : Line) (w0 w1 : Word), s.OrderFree i → w0.toNat = x.val →
    w1.toNat = b.val → 48 ≤ x.val → (s.record x).state = .seized → (s.line b).cls ≠ .spare → (s.line b).busy = none →
    (s.incomingSuitable x b →
      ∃ t, exec (.connectIncoming i w0 w1) s = .next t ∧ t.cordPtr = s.cordPtr ∧ t.groupPtrs = s.groupPtrs ∧
        s.CallAdmitted t i x
          { CallRecord.blank .reserved with
            called := some (.line b), boundSlot := some i, path := incomingPath x b }) ∧
    (¬ s.incomingSuitable x b →
      ∃ t, exec (.connectIncoming i w0 w1) s = .next t ∧ State.ArbiterOnly (s.answered i .congestion (some x)) t)

/-! ## Orders: release and credit -/

/-- RELEASE outside RESERVED and SETTING: a circuit above 55 is BAD ARGUMENT; a record that is FREE, GUARD, SEIZED, CLEARING or CLOSING is NOT
ACTIVE and unchanged; one in RINGING or ANSWERED enters CLEARING with cause ORDER, its break job begins with the last made crosspoint,
and the result is DONE (R33, R35, R36). -/
def Obligations.ReleaseAnsweredOrClears : Prop :=
  ∀ (s : State) (i : OrderSlot) (w : Word), s.OrderFree i →
    (56 ≤ w.toNat → ∃ t, exec (.release i w) s = .next t ∧ State.ArbiterOnly (s.answered i .badArgument none) t) ∧
    ∀ x : Circuit, w.toNat = x.val →
      ((s.record x).state = .free ∨ (s.record x).state = .guarded ∨ (s.record x).state = .seized
          ∨ (s.record x).state = .clearing ∨ (s.record x).state = .closing →
        ∃ t, exec (.release i w) s = .next t ∧ State.ArbiterOnly (s.answered i .notActive (some x)) t) ∧
      ∀ xp, (s.record x).state = .ringing ∨ (s.record x).state = .answered → nextMade (s.record x).path = some xp →
        ∃ t, exec (.release i w) s = .next t ∧
          State.ArbiterOnly ((s.clearedTo x .order xp).answered i .done (some x)) t

/-- RELEASE in RESERVED: the record leaves the wait list, its links and lines are free, the bound connect gets RELEASED before the order's own
DONE, and the record is FREE with its fields cleared; no report is sent but for an incoming record, which goes on to SEIZED with report
SEIZE if F is present, and else reports ABANDON (R7, R34, R150). -/
def Obligations.ReleaseReservedFrees : Prop :=
  ∀ (s : State) (i : OrderSlot) (w : Word) (x : Circuit), s.OrderFree i → w.toNat = x.val →
    (s.record x).state = .reserved →
    ∃ t, exec (.release i w) s = .next t ∧
      (∀ y, t.record y =
        if y = x then CallRecord.blank (if 48 ≤ x.val ∧ s.fPresent x = true then .seized else .free) else s.record y) ∧
      (∀ l, t.line l =
        if some l = (s.record x).calling ∨ some l = calledLine (s.record x).called then { s.line l with busy := none }
        else s.line l) ∧
      (∀ gk, t.link gk =
        if (s.link gk).holder = some x then { s.link gk with holder := none } else s.link gk) ∧
      let u : State :=
        { s with
          records := t.records, lines := t.lines, links := t.links, waitList := s.waitList.filter fun y => y ≠ x,
          results := s.results ++ connectResult x (s.record x) .released }
      let v : State :=
        if x.val < 48 then u else if s.fPresent x = true then u.report (.seize x) else u.report (.abandon x)
      State.ArbiterOnly (v.answered i .done (some x)) t

/-- RELEASE in SETTING: a MAKE already sent leaves the release pending and the record as it is; a MAKE still queued is withdrawn, its
crosspoint unmade, the slot freed, the bound connect answered RELEASED before the order's own DONE, and
the record clears with cause ORDER: in CLEARING, breaking its last made crosspoint, or with nothing made in GUARD at once (R33, R36, R37,
R62). A slot freed while records wait is granted in the same event to the head of the wait list, whose first MAKE is issued (R53). That this
MAKE stands in the transmit queue before the released record's first BREAK, where R62 gives both in one event without an order, is the
model's choice (assumption log 17). -/
def Obligations.ReleaseSettingWithdrawsOrWaits : Prop :=
  (∀ (s : State) (i : OrderSlot) (w : Word) (x : Circuit), s.OrderFree i → w.toNat = x.val →
    (s.record x).state = .setting →
    ((∀ xp, .makeCmd x xp ∉ s.txQueue) →
      ∃ t, exec (.release i w) s = .next t ∧
        State.ArbiterOnly
          (({ s with records := s.records.set x.val { s.record x with releasePending := true } x.isLt } : State).answered i
            .done (some x)) t) ∧
    ∀ xp, inFlightPoint (s.record x).path = some xp → .makeCmd x xp ∈ s.txQueue → s.waitList = [] →
      let path := markPath (s.record x).path xp .unmade
      let u : State :=
        ({ s with
          operateSlots := s.operateSlots.map fun o => if o = some x then none else o,
          records := s.records.set x.val { s.record x with boundSlot := none, path := path } x.isLt,
          txQueue := s.txQueue.filter fun d => d ≠ .makeCmd x xp,
          results := s.results ++ connectResult x (s.record x) .released } : State).answered i .done (some x)
      ∃ t, exec (.release i w) s = .next t ∧
        (∀ xm, nextMade path = some xm → State.ArbiterOnly (u.clearedTo x .order xm) t) ∧
        (nextMade path = none → (s.record x).stamp = none → u.ClearedAtOnce t x .order)) ∧
  ∀ (s : State) (i : OrderSlot) (w : Word) (x y : Circuit) (xp yp : Crosspoint) (n : Fin 4) (later : List Circuit),
    s.OrderFree i → w.toNat = x.val → (s.record x).state = .setting → inFlightPoint (s.record x).path = some xp →
    .makeCmd x xp ∈ s.txQueue → s.SlotAwaited x n y yp later →
    let path := markPath (s.record x).path xp .unmade
    let g : State := ({ s with txQueue := s.txQueue.filter fun d => d ≠ .makeCmd x xp } : State).slotGranted n y yp later
    let u : State :=
      ({ g with
        records := g.records.set x.val { s.record x with boundSlot := none, path := path } x.isLt,
        results := s.results ++ connectResult x (s.record x) .released } : State).answered i .done (some x)
    ∃ t, exec (.release i w) s = .next t ∧
      (∀ xm, nextMade path = some xm → State.ArbiterOnly (u.clearedTo x .order xm) t) ∧
      (nextMade path = none → (s.record x).stamp = none → u.ClearedAtOnce t x .order)

/-- ADD_CREDIT: its refusals in their order, and accepted, the settlement of owed pulses (paid, and charged to the calling line), the
remainder to the credit clamped at 255 with result CLAMPED, grace stopped if nothing is owed and there is credit, and the
credit-added flag (R116, R117, R118). Settled pulses that take the line's count past 65,535 are lost for the line, its meter fault becomes
SATURATED, and one METER FAULT is reported unless it was so already (R94). -/
def Obligations.AddCreditSettles : Prop :=
  ∀ (s : State) (i : OrderSlot) (w0 w1 : Word), s.OrderFree i →
    (56 ≤ w0.toNat →
      ∃ t, exec (.addCredit i w0 w1) s = .next t ∧ State.ArbiterOnly (s.answered i .badArgument none) t) ∧
    ∀ x : Circuit, w0.toNat = x.val →
      (∀ code,
        (if w1.toNat < 1 ∨ 255 < w1.toNat then some ResultCode.badArgument
          else if (s.record x).coin = false then some .notCoin
          else if (s.record x).state ≠ .reserved ∧ (s.record x).state ≠ .setting ∧ (s.record x).state ≠ .ringing
              ∧ (s.record x).state ≠ .answered then some .notActive
          else none) = some code →
        ∃ t, exec (.addCredit i w0 w1) s = .next t ∧ State.ArbiterOnly (s.answered i code (some x)) t) ∧
      ∀ l, 1 ≤ w1.toNat → w1.toNat ≤ 255 → (s.record x).coin = true →
        (s.record x).state = .reserved ∨ (s.record x).state = .setting ∨ (s.record x).state = .ringing
          ∨ (s.record x).state = .answered →
        (s.record x).calling = some l → (s.line l).pulses ≤ 65535 →
        let r := s.record x
        let settled := min r.owed w1.toNat
        let owed := r.owed - settled
        let sum := r.credit + (w1.toNat - settled)
        let code := if 255 < sum then ResultCode.clamped else .done
        let u : State :=
          { s with
            records := s.records.set x.val
              { r with
                owed := owed, paid := min 65535 (r.paid + settled), credit := min 255 sum,
                grace := if owed = 0 ∧ 0 < min 255 sum then none else r.grace, creditAdded := true } x.isLt }
        ∃ t, exec (.addCredit i w0 w1) s = .next t ∧
          ((s.line l).pulses + settled ≤ 65535 →
            State.ArbiterOnly
              (({ u with
                  lines := s.lines.set l.val { s.line l with pulses := (s.line l).pulses + settled } l.isLt } : State).answered
                i code (some x)) t) ∧
          (65535 < (s.line l).pulses + settled →
            let v : State := { u with lines := s.lines.set l.val { s.line l with pulses := 65535, fault := .saturated } l.isLt }
            State.ArbiterOnly
              ((if (s.line l).fault = .saturated then v else v.report (.meterFault l .saturated)).answered i code (some x)) t)

/-! ## Orders: lines, meters, clock, tariff, network -/

/-- SET_CLASS: BAD ARGUMENT for a line above 511 or a class above 4, LINE BUSY for a busy line, else the class is set and nothing else of the
line (R27; class codes of section 11.1). -/
def Obligations.SetClassSetsClass : Prop :=
  ∀ (s : State) (i : OrderSlot) (w0 w1 : Word), s.OrderFree i →
    (512 ≤ w0.toNat ∨ 5 ≤ w1.toNat →
      ∃ t, exec (.setClass i w0 w1) s = .next t ∧ State.ArbiterOnly (s.answered i .badArgument none) t) ∧
    ∀ (l : Line) (c : LineClass), w0.toNat = l.val →
      (w1 = 0 ∧ c = .spare ∨ w1 = 1 ∧ c = .ordinary ∨ w1 = 2 ∧ c = .detailed ∨ w1 = 3 ∧ c = .coin
        ∨ w1 = 4 ∧ c = .incomingOnly) →
      ((s.line l).busy ≠ none →
        ∃ t, exec (.setClass i w0 w1) s = .next t ∧ State.ArbiterOnly (s.answered i .lineBusy none) t) ∧
      ((s.line l).busy = none →
        ∃ t, exec (.setClass i w0 w1) s = .next t ∧
          State.ArbiterOnly
            (({ s with lines := s.lines.set l.val { s.line l with cls := c } l.isLt } : State).answered i .done none) t)

/-- SET_METER: BAD ARGUMENT, NOT SPARE and PENDING in their order; accepted, it waits for its sequence with the dispatcher waiting on its slot,
no result yet, and no record or memory changed (R107, R108, R149). -/
def Obligations.SetMeterChecksAndWaits : Prop :=
  ∀ (s : State) (i : OrderSlot) (w0 w1 w2 : Word), s.OrderFree i →
    (512 ≤ w0.toNat ∨ 16 ≤ w2.toNat ∨ 999999 < w1.toNat + 65536 * w2.toNat →
      ∃ t, exec (.setMeter i w0 w1 w2) s = .next t ∧ State.ArbiterOnly (s.answered i .badArgument none) t) ∧
    ∀ l : Line, w0.toNat = l.val → w2.toNat < 16 → w1.toNat + 65536 * w2.toNat ≤ 999999 →
      ((s.line l).cls ≠ .spare →
        ∃ t, exec (.setMeter i w0 w1 w2) s = .next t ∧ State.ArbiterOnly (s.answered i .notSpare none) t) ∧
      ((s.line l).cls = .spare → (s.line l).pulses ≠ 0 →
        ∃ t, exec (.setMeter i w0 w1 w2) s = .next t ∧ State.ArbiterOnly (s.answered i .pendingPulses none) t) ∧
      ((s.line l).cls = .spare → (s.line l).pulses = 0 →
        ∃ t, exec (.setMeter i w0 w1 w2) s = .next t ∧
          State.ArbiterOnly
            { s with
              slots := s.slots.set i.val { s.slot i with state := .inFlight } i.isLt, dispatcher := .waiting i,
              setMeterJob := some { slot := i, line := l, value := w1.toNat + 65536 * w2.toNat } } t)

/-- SET_TIME: a minute above 10,079 or a second above 59 is BAD ARGUMENT; else the clock takes the minute and second with tenths 0, time unset
becomes false, the band is re-evaluated, and the result is DONE; the tick divider and the records' stamps are not touched (R76, R79,
R80, R81). -/
def Obligations.SetTimeSetsClock : Prop :=
  ∀ (s : State) (i : OrderSlot) (w0 w1 : Word), s.OrderFree i →
    (10080 ≤ w0.toNat ∨ 60 ≤ w1.toNat →
      ∃ t, exec (.setTime i w0 w1) s = .next t ∧ State.ArbiterOnly (s.answered i .badArgument none) t) ∧
    (w0.toNat < 10080 → w1.toNat < 60 →
      ∃ t, exec (.setTime i w0 w1) s = .next t ∧
        State.BandReevaluated
          (({ s with weekMinute := w0.toNat, second := w1.toNat, tenths := 0, timeUnset := false } : State).answered i .done
            none) t)

/-- LOAD_CALENDAR: BAD ARGUMENT for an index above 15, a minute neither in range nor 0xFFFF, or a band above 3 with a minute in range; 0xFFFF
makes the entry invalid whatever the band; a minute in range makes it valid with the minute and band; the other entries stay, and the
band is re-evaluated (R78, R79, R80, R81). -/
def Obligations.LoadCalendarSetsEntry : Prop :=
  ∀ (s : State) (i : OrderSlot) (w0 w1 w2 : Word), s.OrderFree i →
    (16 ≤ w0.toNat ∨ (10080 ≤ w1.toNat ∧ w1 ≠ 0xFFFF) ∨ (w1.toNat < 10080 ∧ 4 ≤ w2.toNat) →
      ∃ t, exec (.loadCalendar i w0 w1 w2) s = .next t ∧ State.ArbiterOnly (s.answered i .badArgument none) t) ∧
    ∀ n : Fin 16, w0.toNat = n.val →
      (w1 = 0xFFFF →
        ∃ t e, exec (.loadCalendar i w0 w1 w2) s = .next t ∧ e.valid = false ∧
          State.BandReevaluated
            (({ s with calendar := s.calendar.set n.val e n.isLt } : State).answered i .done none) t) ∧
      ∀ b : TimeBand, w1.toNat < 10080 → w2.toNat = b.val →
        ∃ t, exec (.loadCalendar i w0 w1 w2) s = .next t ∧
          State.BandReevaluated
            (({ s with
                calendar := s.calendar.set n.val { valid := true, minute := w1.toNat, band := b } n.isLt } : State).answered i
              .done none) t

/-- LOAD_TARIFF: BAD ARGUMENT for a distance band above 7, an interval above 6,000 or a bit of the shared word outside bits 0, 1, 4 and 5; else
the entry takes the interval, the initial pulses of bits 4 to 5 and the increment (131,072 + i) div (2 i), 0 for an interval of 0; the
other entries and the band in force stay (R84, R85). -/
def Obligations.LoadTariffDerivesIncrement : Prop :=
  ∀ (s : State) (i : OrderSlot) (w0 w1 w2 : Word), s.OrderFree i →
    (8 ≤ w0.toNat ∨ 6000 < w2.toNat ∨ w1 &&& 0xFFCC ≠ 0 →
      ∃ t, exec (.loadTariff i w0 w1 w2) s = .next t ∧ State.ArbiterOnly (s.answered i .badArgument none) t) ∧
    ∀ (d : DistBand) (b : TimeBand) (p : Fin 4), w0.toNat = d.val → w2.toNat ≤ 6000 → w1.toNat = b.val + 16 * p.val →
      ∃ t, exec (.loadTariff i w0 w1 w2) s = .next t ∧
        State.ArbiterOnly (({ s with tariff := t.tariff } : State).answered i .done none) t ∧
        ∀ d' b', t.tariffEntry d' b' =
          if d' = d ∧ b' = b then
            { interval := w2.toNat, initial := p.val,
              increment := if w2 = 0 then 0 else (131072 + w2.toNat) / (2 * w2.toNat) }
          else s.tariffEntry d' b'

/-- SET_FAULT, CLEAR_FAULT and CLEAR_FAULT_METER. A crosspoint of stage A or B in range: SET FAULT gives DONE and no change if it is listed,
TABLE FULL at 32 entries, else adds it; CLEAR FAULT removes it if it is there and gives DONE either way. A line in range: its meter fault
becomes none, and nothing else of it changes. An unknown stage or a coordinate or line out of range is BAD ARGUMENT (R13, R14, R110,
section 11.1). -/
def Obligations.FaultOrders : Prop :=
  (∀ (s : State) (i : OrderSlot) (w0 w1 w2 : Word) (o : Option Crosspoint), s.OrderFree i →
    ((w0 = 0 ∧ ∃ g p k : Nat, w1.toNat = 256 * g + p ∧ p < 256 ∧ w2.toNat = k ∧
        o = if h : g < 16 ∧ p < 32 ∧ k < 10 then some (.a ⟨g, h.1⟩ ⟨p, h.2.1⟩ ⟨k, h.2.2⟩) else none) ∨
      (w0 = 1 ∧ ∃ k g j : Nat, w1.toNat = 256 * k + g ∧ g < 256 ∧ w2.toNat = j ∧
        o = if h : k < 10 ∧ g < 16 ∧ j < 8 then some (.b ⟨k, h.1⟩ ⟨g, h.2.1⟩ ⟨j, h.2.2⟩) else none) ∨
      (3 ≤ w0.toNat ∧ o = none)) →
    (o = none →
      (∃ t, exec (.setFault i w0 w1 w2) s = .next t ∧ State.ArbiterOnly (s.answered i .badArgument none) t) ∧
      ∃ t, exec (.clearFault i w0 w1 w2) s = .next t ∧ State.ArbiterOnly (s.answered i .badArgument none) t) ∧
    ∀ xp, o = some xp →
      (∃ t, exec (.setFault i w0 w1 w2) s = .next t ∧
        State.ArbiterOnly
          (if xp ∈ s.faults then s.answered i .done none
            else if 32 ≤ s.faults.length then s.answered i .tableFull none
            else ({ s with faults := s.faults ++ [xp] } : State).answered i .done none) t) ∧
      ∃ t, exec (.clearFault i w0 w1 w2) s = .next t ∧
        State.ArbiterOnly (({ s with faults := s.faults.filter fun y => y ≠ xp } : State).answered i .done none) t) ∧
  (∀ (s : State) (i : OrderSlot) (w1 w2 : Word), s.OrderFree i →
    ∃ t, exec (.setFault i 2 w1 w2) s = .next t ∧ State.ArbiterOnly (s.answered i .badArgument none) t) ∧
  ∀ (s : State) (i : OrderSlot) (w : Word), s.OrderFree i →
    (512 ≤ w.toNat →
      ∃ t, exec (.clearFaultMeter i w) s = .next t ∧ State.ArbiterOnly (s.answered i .badArgument none) t) ∧
    ∀ l : Line, w.toNat = l.val →
      ∃ t, exec (.clearFaultMeter i w) s = .next t ∧
        State.ArbiterOnly
          (({ s with lines := s.lines.set l.val { s.line l with fault := .none } l.isLt } : State).answered i .done none) t

/-- SERVICE_LINK and SERVICE_CIRCUIT: the in-service field takes the direction in bit 15, the holder and all else stay, and the result is DONE;
a group, link or circuit out of range is BAD ARGUMENT (R10, section 11.1). -/
def Obligations.ServiceOrders : Prop :=
  (∀ (s : State) (i : OrderSlot) (w1 w2 : Word), s.OrderFree i →
    (16 ≤ w1.toNat ∨ 10 ≤ w2.toNat % 16 →
      ∃ t, exec (.serviceLink i w1 w2) s = .next t ∧ State.ArbiterOnly (s.answered i .badArgument none) t) ∧
    ∀ (g : LineGroup) (k : LinkNo), w1.toNat = g.val → w2.toNat % 16 = k.val →
      ∃ t, exec (.serviceLink i w1 w2) s = .next t ∧
        State.ArbiterOnly (({ s with links := t.links } : State).answered i .done none) t ∧
        ∀ gk, t.link gk = if gk = (g, k) then { s.link gk with inService := decide (32768 ≤ w2.toNat) } else s.link gk) ∧
  ∀ (s : State) (i : OrderSlot) (w1 w2 : Word), s.OrderFree i →
    (56 ≤ w1.toNat →
      ∃ t, exec (.serviceCircuit i w1 w2) s = .next t ∧ State.ArbiterOnly (s.answered i .badArgument none) t) ∧
    ∀ x : Circuit, w1.toNat = x.val →
      ∃ t, exec (.serviceCircuit i w1 w2) s = .next t ∧
        State.ArbiterOnly
          (({ s with circuitInService := s.circuitInService.set x.val (decide (32768 ≤ w2.toNat)) x.isLt } : State).answered i
            .done (some x)) t

/-! ## The ends of the sequences on the memory port -/

/-- RESULT_WRITE_COMPLETE: the result word (bit 15 set, code in bits 10 to 14, circuit or 63 in bits 0 to 5) stands in word 3 of the slot,
the entry leaves the list, the slot is IDLE, and a dispatcher that waited on it is ready (R151, section 11.1). The codes are 1 to 20 in the order
of section 8.5. With orders waiting the
dispatcher takes the head of the queue in the same event, shown for a head of an unknown kind (R148); and a write stretched at the full queue
then goes to memory in the place that is freed (R146). -/
def Obligations.ResultWriteFreesSlot : Prop :=
  (∀ (s : State) (r : Result) (rest : List Result), s.phase ≠ .held → s.StoreInv → s.owner = .resultWrite →
    s.results = r :: rest → s.orderQueue = [] → s.cycles = [] →
    let a := s.map.order + BitVec.ofNat 16 (4 * r.slot.val + 3)
    let circuit := match r.circuit with | some x => x.val | none => 63
    ∃ t, exec .resultWriteComplete s = .next t ∧
      State.ArbiterOnly
        { s with
          mem := t.mem, slots := t.slots, results := rest,
          dispatcher := if s.dispatcher = .waiting r.slot then .ready else s.dispatcher } t ∧
      (t.readMem a).toNat = 32768 + 1024 * r.code.code + circuit ∧ (∀ b, b ≠ a → t.readMem b = s.readMem b) ∧
      (t.readMem a).toNat / 1024 = 32 +
        (match r.code with
          | .done => 1 | .connected => 2 | .callerBusy => 3 | .calledBusy => 4 | .unobtainable => 5 | .barred => 6
          | .congestion => 7 | .pathFault => 8 | .billingFull => 9 | .released => 10 | .notActive => 11 | .notCoin => 12
          | .clamped => 13 | .lineBusy => 14 | .pendingPulses => 15 | .notSpare => 16 | .badArgument => 17 | .badOrder => 18
          | .tableFull => 19 | .badLine => 20) ∧
      ∀ i, t.slot i = if i = r.slot then { s.slot i with state := .idle } else s.slot i) ∧
  ∀ (s : State) (r : Result) (e : OrderEntry) (q : List OrderEntry), s.phase = .ready → s.owner = .resultWrite →
    s.results = [r] → s.orderQueue = e :: q → s.dispatcher = .waiting r.slot → e.kind.toNat = 0 ∨ 13 < e.kind.toNat →
    (s.cycles = [] → s.stretch = .none →
      ∃ t, exec .resultWriteComplete s = .next t ∧ t.orderQueue = q ∧ t.dispatcher = .waiting e.slot ∧
        t.results = [{ slot := e.slot, code := .badOrder, circuit := none }] ∧
        ∀ i, t.slot i =
          if i = e.slot then { s.slot i with state := .inFlight }
          else if i = r.slot then { s.slot i with state := .idle } else s.slot i) ∧
    ∀ (n : Nat) (w v : Word) (off : Nat), s.stretch = .held n → s.cycles = [.write w v] → s.map.region w = .order off →
      off % 4 = 3 → v.getLsbD 15 = false → (s.slot (offsetSlot off)).state = .idle → offsetSlot off ≠ e.slot → q.length < 8 →
      s.grantCount < 8 →
      ∃ t, exec .resultWriteComplete s = .next t ∧ t.owner = .processor ∧ t.stretch = .none ∧ t.cycles = s.cycles ∧
        t.ends = s.ends ∧ t.orderQueue = q

/-- TICKET_BURST_END: the ticket at the head of the hold queue, its fields within their widths as every step keeps them (StepKeepsCounts), stands
in slot W of the ring with the layout of section 11.4, spelt field by field, no other word
changes, W advances modulo N, full is set if W meets Rd, the ticket leaves, and the oldest CLOSING record, if any, gets the freed
place and the next sequence number and goes to GUARD with its release guard (R129, R131, R135, R49). -/
def Obligations.TicketBurstFillsRing : Prop :=
  ∀ (s : State) (k : Ticket) (rest : List Ticket), s.phase = .ready → s.StoreInv → s.MapInv → s.TicketInv →
    s.owner = .ticketBurst → s.holdQueue = k :: rest → s.cycles = [] → s.writeIndex < 16 * 2 ^ s.map.code →
    let n := 16 * 2 ^ s.map.code
    let slotAddr : Nat → Word := fun w => s.map.ticket + BitVec.ofNat 16 (8 * s.writeIndex + w)
    ∃ t, exec .ticketBurstEnd s = .next t ∧
      State.ArbiterOnly
        { s with
          mem := t.mem, writeIndex := (s.writeIndex + 1) % n,
          ringFull := s.ringFull || decide ((s.writeIndex + 1) % n = s.readIndex),
          closingWaiters := s.closingWaiters.tail, records := t.records,
          holdQueue :=
            match s.closingWaiters with
            | (_, b) :: _ => rest ++ [{ seq := s.seqCounter, body := b }]
            | [] => rest,
          seqCounter := if s.closingWaiters = [] then s.seqCounter else (s.seqCounter + 1) % 65536 } t ∧
      (let b := k.body
        let word : Nat → Word := fun w => t.readMem (slotAddr w)
        (word 0).toNat = k.seq ∧
        (word 1).toNat % 64 = b.circuit.val ∧ (word 1).getLsbD 6 = decide (24 ≤ b.circuit.val) ∧
        (word 1).getLsbD 7 = b.reAnswer ∧ (word 1).toNat / 256 = b.credit ∧
        (word 2).getLsbD 0 = b.timeUnset ∧ (word 2).getLsbD 1 = b.longCall ∧ (word 2).getLsbD 2 = b.bandChanged ∧
        (word 2).getLsbD 3 = b.calledClearSeen ∧ (word 2).getLsbD 4 = b.payToneSent ∧ (word 2).getLsbD 5 = b.creditAdded ∧
        (word 2).getLsbD 6 = b.coin ∧ (word 2).getLsbD 7 = b.detailed ∧
        (word 2).toNat / 256 % 4 = b.bandAtAnswer.val ∧
        (∀ c, b.cause = some c → (word 2).toNat / 1024 % 8 =
          match c with | .callerClear => 1 | .calledClear => 2 | .order => 3 | .credit => 4 | .pathFault => 5) ∧
        (word 2).toNat / 8192 = b.distBand.val ∧
        (∀ l, b.calling = some l → (word 3).toNat % 512 = l.val) ∧ (word 3).toNat / 512 = b.owed ∧
        (∀ l, b.called = some (.line l) → (word 4).toNat % 512 = l.val) ∧
        (∀ j, b.called = some (.junction j) → (word 4).toNat % 512 = j.val) ∧
        (word 4).getLsbD 9 = false ∧ (word 4).toNat / 1024 = b.answerSecond ∧
        (word 5).toNat = b.answerMinute ∧ (word 6).toNat = b.duration ∧ (word 7).toNat = b.paid) ∧
      (∀ a, (∀ w, w < 8 → a ≠ slotAddr w) → t.readMem a = s.readMem a) ∧
      ∀ x, t.record x =
        if s.closingWaiters.head?.map Prod.fst = some x then
          { CallRecord.blank .guarded with guardTimer := some 1228800 }
        else s.record x

/-- SET_METER_WRITE_COMPLETE: the line's two words hold the value's low 16 bits, and its high part with wrap count 0; its meter fault is none;
DONE is handed for the order's slot; nothing else changes (R96, R108, R109). -/
def Obligations.SetMeterWritesRecord : Prop :=
  ∀ (s : State) (j : SetMeterJob), s.phase = .ready → s.StoreInv → s.MapInv → s.owner = .setMeter → s.setMeterJob = some j →
    j.value ≤ 999999 → s.cycles = [] →
    let a := s.map.meter + BitVec.ofNat 16 (2 * j.line.val)
    ∃ t, exec .setMeterWriteComplete s = .next t ∧
      State.ArbiterOnly
        { s with
          mem := t.mem, setMeterJob := none,
          lines := s.lines.set j.line.val { s.line j.line with fault := .none } j.line.isLt,
          results := s.results ++ [{ slot := j.slot, code := .done, circuit := none }] } t ∧
      (t.readMem a).toNat = j.value % 65536 ∧ (t.readMem (a + 1)).toNat = j.value / 65536 ∧
      ∀ b, b ≠ a → b ≠ a + 1 → t.readMem b = s.readMem b

/-- POSTING_END of a valid record with count c and wrap count w: c + p, less 1,000,000 with one more wrap (at most 255) when it reaches
1,000,000, is written to the line's two words and to no others, and p leaves the pending count; the meter fault stays (R96, R99,
R100). -/
def Obligations.PostingAddsPulses : Prop :=
  ∀ (s : State) (p : Posting) (c w : Nat), s.phase = .ready → s.StoreInv → s.MapInv → s.owner = .posting p →
    s.cycles = [] → p.pulses ≤ 65535 → c ≤ 999999 → w ≤ 255 →
    let a := s.map.meter + BitVec.ofNat 16 (2 * p.line.val)
    (s.readMem a).toNat = c % 65536 → (s.readMem (a + 1)).toNat = 256 * w + c / 65536 →
    let c' := if c + p.pulses < 1000000 then c + p.pulses else c + p.pulses - 1000000
    let w' := if c + p.pulses < 1000000 then w else min 255 (w + 1)
    ∃ t, exec .postingEnd s = .next t ∧
      State.ArbiterOnly
        { s with
          mem := t.mem,
          lines := s.lines.set p.line.val
            { s.line p.line with pulses := (s.line p.line).pulses - p.pulses } p.line.isLt } t ∧
      (t.readMem a).toNat = c' % 65536 ∧ (t.readMem (a + 1)).toNat = 256 * w' + c' / 65536 ∧
      ∀ b, b ≠ a → b ≠ a + 1 → t.readMem b = s.readMem b

/-- POSTING_PARITY_ERROR and POSTING_RECORD_CORRUPT write nothing. A first attempt's parity error makes the line the retry line, and a port with
nothing else to do takes its retry; behind another request, or with its read pair open, it stays the retry line; a retry's, or a corrupt record, is a fault found: a line with fault none takes it, with report METER
FAULT and its pending count kept; a SATURATED line stays so, is reported, and loses its pending count (R102, R103, R104, R105). -/
def Obligations.PostingFaultsFound : Prop :=
  (∀ (s : State) (p : Posting) (found : MeterFault) (i : Instr), s.phase = .ready → s.owner = .posting p → s.cycles = [] →
    ((i = .postingParityError ∧ p.attempt = .retry ∧ found = .parity) ∨
      (i = .postingRecordCorrupt ∧ s.meterReadsValid p.line = false ∧ found = .corrupt)) →
    ((s.line p.line).fault = .none →
      ∃ t, exec i s = .next t ∧
        State.ArbiterOnly
          (({ s with lines := s.lines.set p.line.val { s.line p.line with fault := found } p.line.isLt } : State).report
            (.meterFault p.line found)) t) ∧
    ((s.line p.line).fault = .saturated →
      ∃ t, exec i s = .next t ∧
        State.ArbiterOnly
          (({ s with lines := s.lines.set p.line.val { s.line p.line with pulses := 0 } p.line.isLt } : State).report
            (.meterFault p.line found)) t) ∧
    ∀ q : Posting, q.line = p.line → q.attempt = .first → s.results = [] → s.holdQueue = [] → s.burst = .idle →
      s.setMeterJob = none → (s.line p.line).pulses ≠ 0 → s.readPair ≠ some p.line →
      (s.line p.line).fault = .none ∨ (s.line p.line).fault = .saturated →
      ∃ t, exec .postingParityError { s with owner := .posting q } = .next t ∧ State.ArbiterOnly s t ∧
        t.owner = .posting { line := p.line, pulses := (s.line p.line).pulses, attempt := .retry } ∧
        t.postPointer = s.postPointer) ∧
  ∀ (s : State) (q : Posting), s.phase = .ready → s.owner = .posting q → q.attempt = .first →
    let retryWaits : Owner → Prop := fun o => ∃ t, exec .postingParityError s = .next t ∧ State.ArbiterOnly s t ∧
      t.owner = o ∧ t.retryLine = some q.line
    (s.cycles = [] → s.results ≠ [] → retryWaits .resultWrite) ∧
    (s.cycles = [] → s.results = [] → s.burst = .idle → s.holdQueue ≠ [] → s.ringFull = false → retryWaits .ticketBurst) ∧
    (∀ j, s.cycles = [] → s.results = [] → s.burst = .idle → (s.holdQueue = [] ∨ s.ringFull = true) → s.setMeterJob = some j →
      s.readPair ≠ some j.line → retryWaits .setMeter) ∧
    (s.cycles = [] → s.readPair = some q.line → ∃ o, retryWaits o) ∧
    ∀ a, s.cycles = [.read a false] → s.stretch = .none → s.map.region a = .outside → s.grantCount < 8 → retryWaits .passed

/-! ## The metering tick and the clock -/

/-- METERING_TICK. Every ANSWERED local or outgoing record that is not a coin record adds its increment to its accumulator, takes one pulse out
at 65,536, and advances its duration; the pulse goes to its paid count and to its calling line, if no other answered record names
that line; a record not ANSWERED, and an incoming record, is unchanged; then the clock advances a tenth, and at the minute the band is
re-evaluated, a new one reported BAND CHANGE (R73, R74, R79, R80, R81, R89, R90, R93, R168). A pulse for a line at 65,535 is lost and its meter fault becomes SATURATED (R94); a line that no answered record
names as calling keeps its count and fault, and every line its class. That the tick divider becomes 0 wherever it stood is the model's choice
(assumption log 10). -/
def Obligations.TickMetersOrdinaryCalls : Prop :=
  ∀ s : State, s.phase ≠ .held →
    ∃ t, exec .meteringTick s = .next t ∧
      (∀ x : Circuit, (s.record x).state ≠ .answered ∨ 48 ≤ x.val → t.record x = s.record x) ∧
      (∀ x : Circuit, (s.record x).state = .answered → x.val < 48 → (s.record x).coin = false → (s.record x).grace = none →
        let r := s.record x
        let sum := r.acc + (s.tariffEntry r.distBand s.band).increment
        let pulse := if 65536 ≤ sum then 1 else 0
        t.record x =
          { r with
            acc := if 65536 ≤ sum then sum - 65536 else sum, paid := if r.paid < 65535 then r.paid + pulse else r.paid,
            duration := if r.duration < 16777215 then r.duration + 1 else r.duration,
            bandChanged := r.bandChanged || decide (t.band ≠ s.band) } ∧
        ∀ l, r.calling = some l → (s.line l).pulses < 65535 →
          (∀ y : Circuit, y ≠ x → (s.record y).state = .answered → y.val < 48 → (s.record y).calling ≠ some l) →
          (t.line l).pulses = (s.line l).pulses + pulse) ∧
      (∀ (x : Circuit) (l : Line), (s.record x).state = .answered → x.val < 48 → (s.record x).coin = false →
        (s.record x).calling = some l → (s.line l).pulses = 65535 →
        (∀ y : Circuit, y ≠ x → (s.record y).state = .answered → y.val < 48 → (s.record y).calling ≠ some l) →
        (t.line l).pulses = 65535 ∧
        (t.line l).fault =
          if 65536 ≤ (s.record x).acc + (s.tariffEntry (s.record x).distBand s.band).increment then .saturated
          else (s.line l).fault) ∧
      (∀ l, (∀ y : Circuit, (s.record y).state = .answered → y.val < 48 → (s.record y).calling ≠ some l) →
        (t.line l).pulses = (s.line l).pulses ∧ (t.line l).fault = (s.line l).fault) ∧
      (∀ l, (t.line l).cls = (s.line l).cls) ∧
      t.tickDivider = 0 ∧ t.timeUnset = s.timeUnset ∧
      t.tenths = (if s.tenths < 9 then s.tenths + 1 else 0) ∧
      t.second = (if s.tenths < 9 then s.second else if s.second < 59 then s.second + 1 else 0) ∧
      t.weekMinute = (if s.tenths < 9 ∨ s.second < 59 then s.weekMinute
        else if s.weekMinute + 1 < 10080 then s.weekMinute + 1 else 0) ∧
      (s.tenths < 9 ∨ s.second < 59 → t.band = s.band) ∧
      (9 ≤ s.tenths → 59 ≤ s.second → ({ s with weekMinute := t.weekMinute } : State).BandRule t.band ∧
        (s.cycles = [] → t.band ≠ s.band →
          t.reports.getLast? = some (.bandChange t.band) ∨ (32 ≤ t.reports.length ∧ t.reportsLost = true))) ∧
      (s.cycles = [] →
        State.ArbiterOnly
          { s with
            records := t.records, lines := t.lines, links := t.links, txQueue := t.txQueue, reports := t.reports,
            reportsLost := t.reportsLost, holdQueue := t.holdQueue, seqCounter := t.seqCounter,
            closingWaiters := t.closingWaiters, tickDivider := 0, tenths := t.tenths, second := t.second,
            weekMinute := t.weekMinute, band := t.band } t)

/-- METERING_TICK at an ANSWERED coin record. Without a pulse its grace is counted down; a pulse with credit draws and pays it, is charged to its
line, and at credit 0 starts grace with 100 ticks and PAY TONE; a pulse without credit is owed, not charged, and starts grace unless it runs; a
grace that was at 1 expires after the pulse, and the record enters CLEARING with cause CREDIT (R89, R90, R112, R113, R114, R115, R121). A
record with credit has no grace running, as R112 and R117 keep it. -/
def Obligations.TickMetersCoinCalls : Prop :=
  ∀ (s : State) (x : Circuit), s.phase ≠ .held → (s.record x).state = .answered → x.val < 48 → (s.record x).coin = true →
    (∀ n, (s.record x).grace = some n → 1 ≤ n) → (0 < (s.record x).credit → (s.record x).grace = none) →
    (s.record x).paid ≤ 65535 → (s.record x).owed ≤ 127 →
    let r := s.record x
    let sum := r.acc + (s.tariffEntry r.distBand s.band).increment
    let d := if r.duration < 16777215 then r.duration + 1 else r.duration
    ∃ t b, exec .meteringTick s = .next t ∧
      (sum < 65536 → r.grace ≠ some 1 →
        t.record x = { r with acc := sum, duration := d, grace := r.grace.map fun n => n - 1, bandChanged := b }) ∧
      (65536 ≤ sum → 2 ≤ r.credit →
        t.record x =
          { r with acc := sum - 65536, duration := d, credit := r.credit - 1, paid := min 65535 (r.paid + 1),
                   bandChanged := b }) ∧
      (65536 ≤ sum → r.credit = 1 →
        t.record x =
          { r with acc := sum - 65536, duration := d, credit := 0, paid := min 65535 (r.paid + 1), grace := some 100,
                   payToneSent := true, bandChanged := b } ∧ .payTone x ∈ t.txQueue) ∧
      (65536 ≤ sum → r.credit = 0 → r.grace = none →
        t.record x =
          { r with acc := sum - 65536, duration := d, owed := min 127 (r.owed + 1), grace := some 100, payToneSent := true,
                   bandChanged := b } ∧ .payTone x ∈ t.txQueue) ∧
      (∀ n, 65536 ≤ sum → r.credit = 0 → r.grace = some n → 2 ≤ n →
        t.record x =
          { r with acc := sum - 65536, duration := d, owed := min 127 (r.owed + 1), grace := some (n - 1),
                   bandChanged := b }) ∧
      (∀ xm, r.grace = some 1 → nextMade r.path = some xm →
        t.record x =
          { r with acc := if 65536 ≤ sum then sum - 65536 else sum, duration := d,
                   owed := if 65536 ≤ sum then min 127 (r.owed + 1) else r.owed, state := .clearing,
                   cause := some .credit, settle := none, calledClear := none, grace := none, releasePending := false,
                   path := markPath r.path xm .inFlight }) ∧
      ∀ l, r.calling = some l → (s.line l).pulses < 65535 →
        (∀ y : Circuit, y ≠ x → (s.record y).state = .answered → y.val < 48 → (s.record y).calling ≠ some l) →
        (t.line l).pulses = (s.line l).pulses + if 65536 ≤ sum ∧ 0 < r.credit then 1 else 0

/-- MINUTE_ROLLOVER: the clock passes to the next minute of the week, 10,079 to 0, with second and tenths 0, and the band in force is
re-evaluated by the calendar (R74, R79, R80, R81). R74 has the rollover only inside the tick at second 59 and tenths 9; that the command is
taken at any second and tenths, and sets both to 0, is the model's choice (assumption logs 10 and 25). -/
def Obligations.MinuteRolloverReevaluates : Prop :=
  ∀ s : State, s.phase ≠ .held →
    ∃ t, exec .minuteRollover s = .next t ∧
      State.BandReevaluated
        { s with tenths := 0, second := 0, weekMinute := if s.weekMinute < 10079 then s.weekMinute + 1 else 0 } t

/-! ## Supervision -/

/-- SCAN: at every point a raw state equal to the filtered state makes the count absent; a different one starts the count at 0 or advances it, and
at 10 for an appearance, 25 for a disappearance, the filtered state takes the new value with the count absent. If no change is
recognised nothing else changes; if one is, it is delivered to its record as the command F_APPEARS, F_DISAPPEARS, B_APPEARS or B_DISAPPEARS
of its circuit does (R38, R39, R40). That the scan divider becomes 0 wherever it stood is the model's choice (assumption log 10). -/
def Obligations.ScanFiltersPoints : Prop :=
  ∀ (s : State) (raw : BitVec 112), s.phase ≠ .held →
    let next : Point → PointState := fun p =>
      let st := s.points[p]
      let now := raw.getLsbD p.val
      let count := match st.count with | none => 0 | some n => n + 1
      if now = st.present then { present := now, count := none }
      else if (if now then 10 else 25) ≤ count then { present := now, count := none }
      else { present := st.present, count := some count }
    ∃ t, exec (.scan raw) s = .next t ∧ t.scanPins = raw ∧ t.scanDivider = 0 ∧
      (∀ p : Point, t.points[p] = next p) ∧
      (s.cycles = [] → (∀ p : Point, (next p).present = (s.points[p]).present) →
        State.ArbiterOnly { s with points := t.points, scanPins := raw, scanDivider := 0 } t) ∧
      ∀ (q : Point) (x : Circuit), s.cycles = [] → x.val = q.val / 2 → (next q).present ≠ (s.points[q]).present →
        (∀ p : Point, p ≠ q → (next p).present = (s.points[p]).present) →
        ∃ v, exec
            (if q.val % 2 = 0 then (if raw.getLsbD q.val then .fAppears x else .fDisappears x)
              else if raw.getLsbD q.val then .bAppears x else .bDisappears x)
            { s with points := t.points, scanPins := raw, scanDivider := 0 } = .next v ∧
          State.ArbiterOnly v t

/-- F_APPEARS, F_DISAPPEARS and B_DISAPPEARS: the filtered state is set whatever the record's state, and then: F appearing seizes a FREE incoming
record with report SEIZE; F disappearing returns a SEIZED record to FREE with report ABANDON, and clears a RINGING record outside its settle
window or an ANSWERED one with cause CALLER CLEAR; B disappearing starts the called-clear timer of an ANSWERED record, 2 s for an outgoing
junction and 60 s otherwise, with its flag and report CALLED CLEAR; every other case changes nothing more (R40, R44, R45, R47, R48). A seizure
leaves ATTN active (R170). -/
def Obligations.SupervisionChangesTaken : Prop :=
  ∀ (s : State) (x : Circuit), s.phase ≠ .held → s.cycles = [] →
    (let u : State := { s with points := s.points.set (2 * x.val) { present := true, count := none } (by omega) };
      exec (.fAppears x) s = .next
        (if (s.record x).state = .free ∧ 48 ≤ x.val then
          ({ u with records := s.records.set x.val { s.record x with state := .seized } x.isLt } : State).report (.seize x)
        else u) ∧
      ((s.record x).state = .free → 48 ≤ x.val → ∃ t, exec (.fAppears x) s = .next t ∧ t.attnActive = true)) ∧
    (let u : State := { s with points := s.points.set (2 * x.val) { present := false, count := none } (by omega) };
      ((s.record x).state = .seized →
        ∃ t, exec (.fDisappears x) s = .next t ∧
          State.ArbiterOnly
            (({ u with records := s.records.set x.val (CallRecord.blank .free) x.isLt } : State).report (.abandon x)) t) ∧
      (∀ xp, ((s.record x).state = .answered ∨ ((s.record x).state = .ringing ∧ (s.record x).settle = none)) →
        nextMade (s.record x).path = some xp →
        ∃ t, exec (.fDisappears x) s = .next t ∧ State.ArbiterOnly (u.clearedTo x .callerClear xp) t) ∧
      (((s.record x).state = .ringing → (s.record x).settle ≠ none) → (s.record x).state ≠ .answered →
        (s.record x).state ≠ .seized →
        ∃ t, exec (.fDisappears x) s = .next t ∧ State.ArbiterOnly u t)) ∧
    (let u : State := { s with points := s.points.set (2 * x.val + 1) { present := false, count := none } (by omega) };
      exec (.bDisappears x) s = .next
        (if (s.record x).state = .answered then
          ({ u with
              records := s.records.set x.val
                { s.record x with
                  calledClear := some (if 24 ≤ x.val ∧ x.val < 48 then 8192000 else 245760000),
                  calledClearSeen := true } x.isLt } : State).report (.calledClear x)
        else u))

/-- B_APPEARS: RINGING outside its settle window is answered: an incoming record keeps the band of its stamp alone; a local or outgoing record
that is not a coin call takes minute, second, band and time-unset flag, its duration and accumulator from 0, report ANSWER, and the
initial pulses of its tariff entry on its paid count and its line; pulses that take the line's count past 65,535 are lost, its meter fault
becomes SATURATED, and one METER FAULT is reported unless it was so already (R94). ANSWERED with the called-clear timer running stops the timer with
report RE-ANSWER and the re-answer flag. Every other case changes the point alone (R40, R43, R46, R91). -/
def Obligations.BAppearsAnswers : Prop :=
  ∀ (s : State) (x : Circuit), s.phase ≠ .held → s.cycles = [] →
    let u : State := { s with points := s.points.set (2 * x.val + 1) { present := true, count := none } (by omega) }
    let r := s.record x
    (r.state = .ringing → r.settle = none → 48 ≤ x.val →
      ∃ t, exec (.bAppears x) s = .next t ∧
        State.ArbiterOnly
          (({ u with
              records := s.records.set x.val
                { r with state := .answered, stamp := some { band := s.band, time := none } } x.isLt } : State).report
            (.answer x s.band)) t) ∧
    (∀ l, r.state = .ringing → r.settle = none → x.val < 48 → r.coin = false → r.calling = some l →
      let i := (s.tariffEntry r.distBand s.band).initial
      r.paid + i ≤ 65535 → (s.line l).pulses + i ≤ 65535 →
      ∃ t, exec (.bAppears x) s = .next t ∧
        State.ArbiterOnly
          (({ u with
              records := s.records.set x.val
                { r with
                  state := .answered, stamp := some { band := s.band, time := some (s.weekMinute, s.second) },
                  timeUnsetAtAnswer := s.timeUnset, duration := 0, acc := 0, paid := r.paid + i } x.isLt,
              lines := s.lines.set l.val { s.line l with pulses := (s.line l).pulses + i } l.isLt } : State).report
            (.answer x s.band)) t) ∧
    (∀ l, r.state = .ringing → r.settle = none → x.val < 48 → r.coin = false → r.calling = some l →
      let i := (s.tariffEntry r.distBand s.band).initial
      r.paid + i ≤ 65535 → (s.line l).pulses ≤ 65535 → 65535 < (s.line l).pulses + i →
      let v : State :=
        ({ u with
          records := s.records.set x.val
            { r with
              state := .answered, stamp := some { band := s.band, time := some (s.weekMinute, s.second) },
              timeUnsetAtAnswer := s.timeUnset, duration := 0, acc := 0, paid := r.paid + i } x.isLt,
          lines := s.lines.set l.val { s.line l with pulses := 65535, fault := .saturated } l.isLt } : State).report
          (.answer x s.band)
      ∃ t, exec (.bAppears x) s = .next t ∧
        State.ArbiterOnly (if (s.line l).fault = .saturated then v else v.report (.meterFault l .saturated)) t) ∧
    (r.state = .answered → r.calledClear ≠ none →
      ∃ t, exec (.bAppears x) s = .next t ∧
        State.ArbiterOnly
          (({ u with
              records := s.records.set x.val { r with calledClear := none, reAnswer := true } x.isLt } : State).report
            (.reAnswer x)) t) ∧
    ((r.state = .ringing → r.settle ≠ none) → (r.state = .answered → r.calledClear = none) →
      ∃ t, exec (.bAppears x) s = .next t ∧ State.ArbiterOnly u t)

/-- The answer of a coin record, with nothing owed and no grace running before it (R119), disposes of its initial pulses one by one: credit above
them pays them; credit equal to them or short of them is exhausted, the rest is owed, and grace starts with 100 ticks, PAY TONE and its
flag, ANSWER being reported before PAY TONE; with no pulse nothing is drawn. What credit pays is charged to the calling line (R43, R91,
R112, R113, R114, R120). -/
def Obligations.CoinAnswerDrawsCredit : Prop :=
  ∀ (s : State) (x : Circuit) (l : Line), s.phase ≠ .held → s.cycles = [] → (s.record x).state = .ringing →
    (s.record x).settle = none → x.val < 48 → (s.record x).coin = true → (s.record x).owed = 0 →
    (s.record x).grace = none → (s.record x).calling = some l → s.reports.length + 2 ≤ 32 →
    let r := s.record x
    let i := (s.tariffEntry r.distBand s.band).initial
    let drawn := min r.credit i
    let short := 0 < i ∧ r.credit ≤ i
    i ≤ 3 → r.paid + i ≤ 65535 → (s.line l).pulses + i ≤ 65535 →
    ∃ t, exec (.bAppears x) s = .next t ∧
      State.ArbiterOnly
        { s with
          points := s.points.set (2 * x.val + 1) { present := true, count := none } (by omega),
          records := s.records.set x.val
            { r with
              state := .answered, stamp := some { band := s.band, time := some (s.weekMinute, s.second) },
              timeUnsetAtAnswer := s.timeUnset, duration := 0, acc := 0, credit := r.credit - drawn,
              paid := r.paid + drawn, owed := i - drawn, grace := if short then some 100 else none,
              payToneSent := r.payToneSent || decide short } x.isLt,
          lines := s.lines.set l.val { s.line l with pulses := (s.line l).pulses + drawn } l.isLt,
          txQueue := if short ∧ .payTone x ∉ s.txQueue then s.txQueue ++ [.payTone x] else s.txQueue,
          reports := s.reports ++ [.answer x s.band] ++
            if short then [.payTone x (if r.credit = 0 then 1 else 0)] else [] } t

/-- The timers of a record. SETTLE_EXPIRY of a RINGING record: F absent, it clears with cause CALLER CLEAR; F present and B present, the
answer is taken as on B appearing after the window; F present and B absent, it stays in RINGING with no timer (R42). GRACE_EXPIRY and
CALLED_CLEAR_EXPIRY of an ANSWERED record whose timer runs: CLEARING with cause CREDIT or CALLED CLEAR, its counts kept (R36, R46, R121).
GUARD_EXPIRY: FREE with its fields clear, and an incoming record with F present goes on to SEIZED with report SEIZE (R23, R50). That an expiry
is taken whatever periods its timer has left, and GRACE_EXPIRY whatever ticks are left, is the model's choice (assumption logs 10 and 25). -/
def Obligations.RecordTimersExpire : Prop :=
  (∀ (s : State) (x : Circuit) (n : Nat), s.phase ≠ .held → s.cycles = [] → (s.record x).state = .ringing →
    (s.record x).settle = some n →
    let u : State := { s with records := s.records.set x.val { s.record x with settle := none } x.isLt }
    (∀ xp, (s.points[fPoint x]).present = false → nextMade (s.record x).path = some xp →
      ∃ t, exec (.settleExpiry x) s = .next t ∧ State.ArbiterOnly (s.clearedTo x .callerClear xp) t) ∧
    ((s.points[fPoint x]).present = true → s.points[bPoint x] = { present := true, count := none } →
      ∃ t, exec (.settleExpiry x) s = .next t ∧ exec (.bAppears x) u = .next t ∧
        (x.val < 48 → (s.tariffEntry (s.record x).distBand s.band).initial = 0 →
          t.record x =
            { s.record x with
              state := .answered, settle := none, duration := 0, acc := 0, timeUnsetAtAnswer := s.timeUnset,
              stamp := some { band := s.band, time := some (s.weekMinute, s.second) } })) ∧
    ((s.points[fPoint x]).present = true → (s.points[bPoint x]).present = false →
      ∃ t, exec (.settleExpiry x) s = .next t ∧ State.ArbiterOnly u t)) ∧
  (∀ (s : State) (x : Circuit) (xp : Crosspoint), s.phase ≠ .held → s.cycles = [] → (s.record x).state = .answered →
    nextMade (s.record x).path = some xp →
    ((s.record x).grace ≠ none →
      ∃ t, exec (.graceExpiry x) s = .next t ∧ State.ArbiterOnly (s.clearedTo x .credit xp) t) ∧
    ((s.record x).calledClear ≠ none →
      ∃ t, exec (.calledClearExpiry x) s = .next t ∧ State.ArbiterOnly (s.clearedTo x .calledClear xp) t)) ∧
  ∀ (s : State) (x : Circuit) (n : Nat), s.phase ≠ .held → (s.record x).state = .guarded → (s.record x).guardTimer = some n →
    exec (.guardExpiry x) s = .next
      (if 48 ≤ x.val ∧ (s.points[fPoint x]).present = true then
        ({ s with records := s.records.set x.val (CallRecord.blank .seized) x.isLt } : State).report (.seize x)
      else { s with records := s.records.set x.val (CallRecord.blank .free) x.isLt })

/-! ## Making and breaking paths -/

/-- COMMAND_SENT with a command on MXO: a MAKE or BREAK enters the outstanding list with an 80 ms timer, CLEAR ALL and PAY TONE do not, and the
next command of the transmit queue begins (R54, R55). The word of the command on MXO has the layout of section 11.8, and MXO carries its
frame: start bit low, bits 0 to 15, a parity bit that makes the ones odd, stop bit high; idle it is high (R174). -/
def Obligations.CommandSentStartsTimer : Prop :=
  (∀ (s : State) (c : PortCommand), s.phase ≠ .held → s.onWire = some c →
    exec .commandSent s = .next
      { s with
        outstanding := s.outstanding ++
          (match c with
            | .makeCmd x xp => [{ kind := .makeJob, xp := xp, circuit := x, left := 327680 }]
            | .breakCmd x xp => [{ kind := .breakJob, xp := xp, circuit := x, left := 327680 }]
            | .clearAll => []
            | .payTone _ => []),
        txQueue := s.txQueue.tail, onWire := s.txQueue.head?,
        wireLeft := if s.txQueue = [] then 0 else 1216 }) ∧
  (∀ s : State, s.onWire = none → s.mxoWord = none ∧ s.mxoLevel = true) ∧
  ∀ (s : State) (c : PortCommand), s.onWire = some c → ∃ w : Word, s.mxoWord = some w ∧
    w.toNat =
      (match c with
        | .makeCmd _ (.a g p k) => k.val + 16 * p.val + 512 * g.val
        | .makeCmd _ (.b k g j) => 8192 + j.val + 16 * g.val + 256 * k.val
        | .breakCmd _ (.a g p k) => 16384 + k.val + 16 * p.val + 512 * g.val
        | .breakCmd _ (.b k g j) => 16384 + 8192 + j.val + 16 * g.val + 256 * k.val
        | .clearAll => 32768
        | .payTone x => 49152 + x.val) ∧
    ∀ i, i = (1216 - s.wireLeft) / 64 →
      (i = 0 → s.mxoLevel = false) ∧ (∀ n, n < 16 → i = n + 1 → s.mxoLevel = w.getLsbD n) ∧
      (i = 17 → (((List.range 16).filter fun n => w.getLsbD n).length + s.mxoLevel.toNat) % 2 = 1) ∧
      (i = 18 → s.mxoLevel = true)

/-- A response whose crosspoint is not outstanding for its command, or whose parity is even or stop bit low, or whose stage bit is 1 with bit 3
or bit 12 set, or with a coordinate out of range (a link number above 9), is discarded and changes nothing; and the body a driver board sends for a crosspoint, with its parity and stop bit, is read back as that crosspoint (R55, R174,
section 11.8). -/
def Obligations.UnmatchedResponsesDiscarded : Prop :=
  (∀ (s : State) (fail brk : Bool) (xp : Crosspoint),
    receivedCrosspoint fail brk (boardResponse fail brk xp) = some xp ∧
    ((∀ o ∈ s.outstanding, o.xp = xp → o.kind ≠ if brk then .breakJob else .makeJob) →
      exec (match fail, brk with
        | false, false => .makeDone (boardResponse fail brk xp)
        | true, false => .makeFail (boardResponse fail brk xp)
        | false, true => .breakDone (boardResponse fail brk xp)
        | true, true => .breakFail (boardResponse fail brk xp)) s = .next s)) ∧
  (∀ (s : State) (r : Response),
    (r.stop = false →
      exec (.makeDone r) s = .next s ∧ exec (.makeFail r) s = .next s ∧ exec (.breakDone r) s = .next s
        ∧ exec (.breakFail r) s = .next s) ∧
    (∀ xp, r = { boardResponse false false xp with parity := !(boardResponse false false xp).parity } →
      exec (.makeDone r) s = .next s) ∧
    ((r.body.getLsbD 13 = true ∧ (r.body.getLsbD 3 = true ∨ r.body.getLsbD 12 = true ∨ 10 ≤ r.body.toNat / 256 % 16)) ∨
        (r.body.getLsbD 13 = false ∧ 10 ≤ r.body.toNat % 16) →
      exec (.makeDone r) s = .next s ∧ exec (.makeFail r) s = .next s ∧ exec (.breakDone r) s = .next s
        ∧ exec (.breakFail r) s = .next s)) ∧
  ∀ (s : State) (r : Response) (fail brk : Bool),
    (((List.range 14).filter fun n => r.body.getLsbD n).length + fail.toNat + brk.toNat + r.parity.toNat) % 2 = 0 →
    exec (match fail, brk with
      | false, false => .makeDone r
      | true, false => .makeFail r
      | false, true => .breakDone r
      | true, true => .breakFail r) s = .next s

/-- MAKE_DONE of a record in SETTING without a release pending: the crosspoint is marked made and its entry leaves the outstanding list; with a
crosspoint of the path still unmade, MAKE is issued for the first of them; with none, the slot is freed, the record is RINGING with a
settle timer of 200 ms, and CONNECTED with its circuit is handed to its bound slot (R55, R56, R57). A slot freed while
records wait is granted in the same event to the head of the wait list, whose record enters SETTING with its first MAKE issued (R53).
With a release pending the slot is freed, and granted alike; RELEASED is handed to the bound slot, and the record is in CLEARING with cause
ORDER, breaking its last made crosspoint (R36, R63). -/
def Obligations.MakeDoneContinuesOrConnects : Prop :=
  (∀ (s : State) (x : Circuit) (xp : Crosspoint) (rest : List Outstanding), s.phase ≠ .held → s.cycles = [] →
    s.awaits .makeJob xp x rest → (s.record x).state = .setting → (s.record x).releasePending = false →
    let v := s.responded x xp .made rest
    (∀ next, nextUnmade (v.record x).path = some next →
      ∃ t, exec (.makeDone (boardResponse false false xp)) s = .next t ∧
        State.ArbiterOnly
          { v with
            txQueue := s.txQueue ++ [.makeCmd x next],
            records := v.records.set x.val
              { v.record x with path := markPath (v.record x).path next .inFlight } x.isLt } t) ∧
    (nextUnmade (v.record x).path = none → s.waitList = [] →
      ∃ t, exec (.makeDone (boardResponse false false xp)) s = .next t ∧
        State.ArbiterOnly
          { v with
            operateSlots := s.operateSlots.map fun o => if o = some x then none else o,
            records := v.records.set x.val
              { v.record x with state := .ringing, settle := some 819200, boundSlot := none } x.isLt,
            results := s.results ++ connectResult x (s.record x) .connected } t)) ∧
  (∀ (s : State) (x : Circuit) (xp xm : Crosspoint) (rest : List Outstanding), s.phase ≠ .held → s.cycles = [] →
    s.awaits .makeJob xp x rest → (s.record x).state = .setting → (s.record x).releasePending = true →
    let v := s.responded x xp .made rest
    nextMade (v.record x).path = some xm →
    (s.waitList = [] →
      let u : State :=
        { v with
          operateSlots := s.operateSlots.map fun o => if o = some x then none else o,
          records := v.records.set x.val { v.record x with boundSlot := none } x.isLt,
          results := s.results ++ connectResult x (s.record x) .released }
      ∃ t, exec (.makeDone (boardResponse false false xp)) s = .next t ∧ State.ArbiterOnly (u.clearedTo x .order xm) t) ∧
    ∀ (n : Fin 4) (y : Circuit) (yp : Crosspoint) (later : List Circuit), s.SlotAwaited x n y yp later →
      let g := v.slotGranted n y yp later
      let u : State :=
        { g with
          records := g.records.set x.val { v.record x with boundSlot := none } x.isLt,
          results := s.results ++ connectResult x (s.record x) .released }
      ∃ t, exec (.makeDone (boardResponse false false xp)) s = .next t ∧ State.ArbiterOnly (u.clearedTo x .order xm) t) ∧
  ∀ (s : State) (x y : Circuit) (xp yp : Crosspoint) (rest : List Outstanding) (later : List Circuit) (n : Fin 4),
    s.phase ≠ .held → s.cycles = [] → s.awaits .makeJob xp x rest → (s.record x).state = .setting →
    (s.record x).releasePending = false → nextUnmade (markPath (s.record x).path xp .made) = none →
    s.SlotAwaited x n y yp later →
    let v := s.responded x xp .made rest
    let g := v.slotGranted n y yp later
    ∃ t, exec (.makeDone (boardResponse false false xp)) s = .next t ∧
      State.ArbiterOnly
        { g with
          records := g.records.set x.val
            { v.record x with state := .ringing, settle := some 819200, boundSlot := none } x.isLt,
          results := s.results ++ connectResult x (s.record x) .connected } t ∧
      t.record y = { s.record y with state := .setting, path := markPath (s.record y).path yp .inFlight } ∧
      ∀ m : Fin 4, t.operateSlots[m] = if m = n then some y else s.operateSlots[m]

/-- MAKE_FAIL and MAKE_TIMEOUT of a record in SETTING with a release pending, or whose connect no re-hunt saves: the crosspoint is marked unmade
on FAIL and made on timeout, and recorded with its cause; the slot is freed, the bound slot gets PATH FAULT, or RELEASED for a pending
release, and the record clears with cause PATH FAULT or ORDER: in CLEARING, breaking its last made crosspoint, or with nothing made in GUARD
at once (R12, R58, R61, R63). A slot freed while records wait is granted in the same event to the head of the wait list, whose first MAKE is
issued (R53). -/
def Obligations.MakeFailureEndsConnect : Prop :=
  (∀ (s : State) (x : Circuit) (xp : Crosspoint) (rest : List Outstanding) (i : Instr) (mark : Mark) (cause : FaultCause)
    (code : ResultCode) (clear : ClearCause), s.phase ≠ .held → s.cycles = [] → s.awaits .makeJob xp x rest →
    (s.record x).state = .setting → s.waitList = [] →
    ((i = .makeFail (boardResponse true false xp) ∧ mark = .unmade ∧ cause = .fail) ∨
      (i = .makeTimeout xp ∧ mark = .made ∧ cause = .makeTimeout)) →
    let v := (s.responded x xp mark rest).makeFaultRecorded xp cause
    (((s.record x).releasePending = true ∧ code = .released ∧ clear = .order) ∨
      ((s.record x).releasePending = false ∧ v.noRehunt x ∧ code = .pathFault ∧ clear = .pathFault)) →
    let u : State :=
      { v with
        operateSlots := s.operateSlots.map fun o => if o = some x then none else o,
        records := v.records.set x.val { v.record x with boundSlot := none } x.isLt,
        results := s.results ++ connectResult x (s.record x) code }
    ∃ t, exec i s = .next t ∧
      (∀ xm, nextMade (v.record x).path = some xm → State.ArbiterOnly (u.clearedTo x clear xm) t) ∧
      (nextMade (v.record x).path = none → (s.record x).stamp = none → u.ClearedAtOnce t x clear)) ∧
  ∀ (s : State) (x y : Circuit) (xp yp : Crosspoint) (rest : List Outstanding) (i : Instr) (mark : Mark) (cause : FaultCause)
    (code : ResultCode) (clear : ClearCause) (n : Fin 4) (later : List Circuit), s.phase ≠ .held → s.cycles = [] →
    s.awaits .makeJob xp x rest → (s.record x).state = .setting → s.SlotAwaited x n y yp later →
    ((i = .makeFail (boardResponse true false xp) ∧ mark = .unmade ∧ cause = .fail) ∨
      (i = .makeTimeout xp ∧ mark = .made ∧ cause = .makeTimeout)) →
    let v := (s.responded x xp mark rest).makeFaultRecorded xp cause
    (((s.record x).releasePending = true ∧ code = .released ∧ clear = .order) ∨
      ((s.record x).releasePending = false ∧ v.noRehunt x ∧ code = .pathFault ∧ clear = .pathFault)) →
    let g := v.slotGranted n y yp later
    let u : State :=
      { g with
        records := g.records.set x.val { v.record x with boundSlot := none } x.isLt,
        results := s.results ++ connectResult x (s.record x) code }
    ∃ t, exec i s = .next t ∧
      (∀ xm, nextMade (v.record x).path = some xm → State.ArbiterOnly (u.clearedTo x clear xm) t) ∧
      (nextMade (v.record x).path = none → (s.record x).stamp = none → u.ClearedAtOnce t x clear)

/-- MAKE_FAIL and MAKE_TIMEOUT of a record in SETTING not yet re-hunted and with no release pending, when a circuit may be taken: the crosspoint
is marked and recorded, and the call moves to the first such cord from the cord pointer upward, or the first such junction of its group from
the group's pointer upward, the pointer passing it; no result is handed over (R12, R16, R17, R19, R20, R58, R59, R60). -/
def Obligations.MakeFailureRehunts : Prop :=
  ∀ (s : State) (x : Circuit) (xp : Crosspoint) (rest : List Outstanding) (i : Instr) (mark : Mark) (cause : FaultCause)
    (la : Line), s.phase ≠ .held → s.cycles = [] → s.awaits .makeJob xp x rest → (s.record x).state = .setting →
    (s.record x).releasePending = false → (s.record x).rehuntUsed = false → (s.record x).calling = some la →
    ((i = .makeFail (boardResponse true false xp) ∧ mark = .unmade ∧ cause = .fail) ∨
      (i = .makeTimeout xp ∧ mark = .made ∧ cause = .makeTimeout)) →
    let v := (s.responded x xp mark rest).makeFaultRecorded xp cause
    (∀ (lb : Line) (n : Cord), x.val < 24 → (s.record x).called = some (.line lb) →
      v.movesToCord x la lb (s.cordPtr + n) → (∀ m, m < n → ¬ v.movesToCord x la lb (s.cordPtr + m)) →
      ∃ t, exec i s = .next t ∧ t.cordPtr = s.cordPtr + n + 1 ∧ t.groupPtrs = s.groupPtrs ∧
        v.CallMoved t x (cordCircuit (s.cordPtr + n)) (localPath (s.cordPtr + n) la lb) (.line lb)) ∧
    ∀ (g : JunctionGroup) (n : Fin 8) (j k : Junction), 24 + 8 * g.val ≤ x.val → x.val < 32 + 8 * g.val →
      (s.record x).called = some (.junction j) → v.movesToJunction x la g (s.groupPtrs[g] + n) →
      (∀ m, m < n → ¬ v.movesToJunction x la g (s.groupPtrs[g] + m)) → k.val = 8 * g.val + (s.groupPtrs[g] + n).val →
      ∃ t, exec i s = .next t ∧ t.cordPtr = s.cordPtr ∧
        (∀ h : JunctionGroup, t.groupPtrs[h] = if h = g then s.groupPtrs[g] + n + 1 else s.groupPtrs[h]) ∧
        v.CallMoved t x (groupCircuit g (s.groupPtrs[g] + n)) (outgoingPath (groupCircuit g (s.groupPtrs[g] + n)) la)
          (.junction k)

/-- BREAK_DONE, BREAK_FAIL and BREAK_TIMEOUT of a record in CLEARING with another crosspoint still made: the crosspoint is marked unmade and
BREAK is issued for the next in reverse make order; FAIL and timeout also record it, report CROSSPOINT FAULT if it was not listed, and take
its link out of service with report LINK OUT, its holder kept (R8, R12, R64, R65). -/
def Obligations.BreakGoesOn : Prop :=
  ∀ (s v : State) (x : Circuit) (xp xm : Crosspoint) (rest : List Outstanding) (i : Instr), s.phase ≠ .held → s.cycles = [] →
    s.awaits .breakJob xp x rest → (s.record x).state = .clearing →
    ((i = .breakDone (boardResponse false true xp) ∧ v = s.responded x xp .unmade rest) ∨
      ((i = .breakFail (boardResponse true true xp) ∨ i = .breakTimeout xp) ∧
        v = (s.responded x xp .unmade rest).breakFaultRecorded xp)) →
    nextMade (v.record x).path = some xm →
    ∃ t, exec i s = .next t ∧
      State.ArbiterOnly
        { v with
          txQueue := s.txQueue ++ [.breakCmd x xm],
          records := v.records.set x.val { v.record x with path := markPath (v.record x).path xm .inFlight } x.isLt } t

/-- The last BREAK of a break job, done, failed or timed out: the circuit's links and lines are free; a record with its ticket flag and an answer
stamp yields exactly one ticket, which takes a place of the hold queue with the next sequence number, or with 8 held leaves the record in
CLOSING at the tail of the waiters; a record that owes no ticket, or whose ticket was taken, is in GUARD with its fields clear and 300 ms to
run (R7, R23, R37, R49, R66, R125, R128, R129). -/
def Obligations.LastBreakFreesAndTickets : Prop :=
  ∀ (s v : State) (x : Circuit) (xp : Crosspoint) (rest : List Outstanding) (i : Instr), s.phase ≠ .held → s.cycles = [] →
    s.awaits .breakJob xp x rest → (s.record x).state = .clearing →
    ((i = .breakDone (boardResponse false true xp) ∧ v = s.responded x xp .unmade rest) ∨
      ((i = .breakFail (boardResponse true true xp) ∨ i = .breakTimeout xp) ∧
        v = (s.responded x xp .unmade rest).breakFaultRecorded xp)) →
    nextMade (v.record x).path = none →
    let r := s.record x
    let owes := r.ticket = true ∧ r.stamp ≠ none
    ∃ t, exec i s = .next t ∧
      (∀ gk, t.link gk = if (v.link gk).holder = some x then { v.link gk with holder := none } else v.link gk) ∧
      (∀ l, t.line l =
        if some l = r.calling ∨ some l = calledLine r.called then { s.line l with busy := none } else s.line l) ∧
      (∀ y, y ≠ x → t.record y = s.record y) ∧
      State.ArbiterOnly
        { v with
          records := t.records, lines := t.lines, links := t.links, holdQueue := t.holdQueue,
          seqCounter := t.seqCounter, closingWaiters := t.closingWaiters } t ∧
      (¬ owes ∨ s.holdQueue.length < 8 →
        t.record x = { CallRecord.blank .guarded with guardTimer := some 1228800 } ∧ t.closingWaiters = s.closingWaiters) ∧
      (¬ owes → t.holdQueue = s.holdQueue ∧ t.seqCounter = s.seqCounter) ∧
      (owes → ∃ b : TicketBody,
        (b.circuit = x ∧ b.cause = r.cause ∧ b.calling = r.calling ∧ b.called = r.called ∧ b.distBand = r.distBand ∧
          b.paid = r.paid ∧ b.credit = r.credit ∧ b.owed = r.owed ∧ b.coin = r.coin ∧ b.detailed = r.detailed ∧
          b.timeUnset = r.timeUnsetAtAnswer ∧ b.bandChanged = r.bandChanged ∧ b.calledClearSeen = r.calledClearSeen ∧
          b.reAnswer = r.reAnswer ∧ b.payToneSent = r.payToneSent ∧ b.creditAdded = r.creditAdded ∧
          b.duration = min 65535 (r.duration / 10) ∧ b.longCall = decide (65535 < r.duration / 10) ∧
          (∀ st, r.stamp = some st → b.bandAtAnswer = st.band) ∧
          ∀ st m n, r.stamp = some st → st.time = some (m, n) → b.answerMinute = m ∧ b.answerSecond = n) ∧
        (s.holdQueue.length < 8 →
          t.holdQueue = s.holdQueue ++ [{ seq := s.seqCounter, body := b }] ∧ t.seqCounter = (s.seqCounter + 1) % 65536) ∧
        (8 ≤ s.holdQueue.length →
          t.holdQueue = s.holdQueue ∧ t.seqCounter = s.seqCounter ∧ t.closingWaiters = s.closingWaiters ++ [(x, b)] ∧
          t.record x = { r with state := .closing, calling := none, called := none, path := [] }))
end

