-- ==== Sys2Proof/Laws/State.lean ====
section
/-!
SUPPORT. The small lemmas of State: what each update of a table, the call store, a queue or the reports leaves in each field, and
what the getters read after the setters.
-/

namespace Sys2Proof.Machine

section Fields

variable (s : State)

/-! ## setRecord -/

@[simp] theorem State.setRecord_phase (x : Circuit) (r : CallRecord) : (s.setRecord x r).phase = s.phase := rfl
@[simp] theorem State.setRecord_map (x : Circuit) (r : CallRecord) : (s.setRecord x r).map = s.map := rfl
@[simp] theorem State.setRecord_configFault (x : Circuit) (r : CallRecord) : (s.setRecord x r).configFault = s.configFault := rfl
@[simp] theorem State.setRecord_readPair (x : Circuit) (r : CallRecord) : (s.setRecord x r).readPair = s.readPair := rfl
@[simp] theorem State.setRecord_grantCount (x : Circuit) (r : CallRecord) : (s.setRecord x r).grantCount = s.grantCount := rfl
@[simp] theorem State.setRecord_owner (x : Circuit) (r : CallRecord) : (s.setRecord x r).owner = s.owner := rfl
@[simp] theorem State.setRecord_accessLeft (x : Circuit) (r : CallRecord) : (s.setRecord x r).accessLeft = s.accessLeft := rfl
@[simp] theorem State.setRecord_cycles (x : Circuit) (r : CallRecord) : (s.setRecord x r).cycles = s.cycles := rfl
@[simp] theorem State.setRecord_stretch (x : Circuit) (r : CallRecord) : (s.setRecord x r).stretch = s.stretch := rfl
@[simp] theorem State.setRecord_ends (x : Circuit) (r : CallRecord) : (s.setRecord x r).ends = s.ends := rfl
@[simp] theorem State.setRecord_mem (x : Circuit) (r : CallRecord) : (s.setRecord x r).mem = s.mem := rfl
@[simp] theorem State.setRecord_slots (x : Circuit) (r : CallRecord) : (s.setRecord x r).slots = s.slots := rfl
@[simp] theorem State.setRecord_orderQueue (x : Circuit) (r : CallRecord) : (s.setRecord x r).orderQueue = s.orderQueue := rfl
@[simp] theorem State.setRecord_threshold (x : Circuit) (r : CallRecord) : (s.setRecord x r).threshold = s.threshold := rfl
@[simp] theorem State.setRecord_dispatcher (x : Circuit) (r : CallRecord) : (s.setRecord x r).dispatcher = s.dispatcher := rfl
@[simp] theorem State.setRecord_results (x : Circuit) (r : CallRecord) : (s.setRecord x r).results = s.results := rfl
@[simp] theorem State.setRecord_links (x : Circuit) (r : CallRecord) : (s.setRecord x r).links = s.links := rfl
@[simp] theorem State.setRecord_circuitInService (x : Circuit) (r : CallRecord) : (s.setRecord x r).circuitInService = s.circuitInService := rfl
@[simp] theorem State.setRecord_faults (x : Circuit) (r : CallRecord) : (s.setRecord x r).faults = s.faults := rfl
@[simp] theorem State.setRecord_cordPtr (x : Circuit) (r : CallRecord) : (s.setRecord x r).cordPtr = s.cordPtr := rfl
@[simp] theorem State.setRecord_groupPtrs (x : Circuit) (r : CallRecord) : (s.setRecord x r).groupPtrs = s.groupPtrs := rfl
@[simp] theorem State.setRecord_operateSlots (x : Circuit) (r : CallRecord) : (s.setRecord x r).operateSlots = s.operateSlots := rfl
@[simp] theorem State.setRecord_waitList (x : Circuit) (r : CallRecord) : (s.setRecord x r).waitList = s.waitList := rfl
@[simp] theorem State.setRecord_txQueue (x : Circuit) (r : CallRecord) : (s.setRecord x r).txQueue = s.txQueue := rfl
@[simp] theorem State.setRecord_onWire (x : Circuit) (r : CallRecord) : (s.setRecord x r).onWire = s.onWire := rfl
@[simp] theorem State.setRecord_wireLeft (x : Circuit) (r : CallRecord) : (s.setRecord x r).wireLeft = s.wireLeft := rfl
@[simp] theorem State.setRecord_bitClock (x : Circuit) (r : CallRecord) : (s.setRecord x r).bitClock = s.bitClock := rfl
@[simp] theorem State.setRecord_outstanding (x : Circuit) (r : CallRecord) : (s.setRecord x r).outstanding = s.outstanding := rfl
@[simp] theorem State.setRecord_points (x : Circuit) (r : CallRecord) : (s.setRecord x r).points = s.points := rfl
@[simp] theorem State.setRecord_scanPins (x : Circuit) (r : CallRecord) : (s.setRecord x r).scanPins = s.scanPins := rfl
@[simp] theorem State.setRecord_scanDivider (x : Circuit) (r : CallRecord) : (s.setRecord x r).scanDivider = s.scanDivider := rfl
@[simp] theorem State.setRecord_lines (x : Circuit) (r : CallRecord) : (s.setRecord x r).lines = s.lines := rfl
@[simp] theorem State.setRecord_tickDivider (x : Circuit) (r : CallRecord) : (s.setRecord x r).tickDivider = s.tickDivider := rfl
@[simp] theorem State.setRecord_weekMinute (x : Circuit) (r : CallRecord) : (s.setRecord x r).weekMinute = s.weekMinute := rfl
@[simp] theorem State.setRecord_second (x : Circuit) (r : CallRecord) : (s.setRecord x r).second = s.second := rfl
@[simp] theorem State.setRecord_tenths (x : Circuit) (r : CallRecord) : (s.setRecord x r).tenths = s.tenths := rfl
@[simp] theorem State.setRecord_timeUnset (x : Circuit) (r : CallRecord) : (s.setRecord x r).timeUnset = s.timeUnset := rfl
@[simp] theorem State.setRecord_calendar (x : Circuit) (r : CallRecord) : (s.setRecord x r).calendar = s.calendar := rfl
@[simp] theorem State.setRecord_band (x : Circuit) (r : CallRecord) : (s.setRecord x r).band = s.band := rfl
@[simp] theorem State.setRecord_tariff (x : Circuit) (r : CallRecord) : (s.setRecord x r).tariff = s.tariff := rfl
@[simp] theorem State.setRecord_postPointer (x : Circuit) (r : CallRecord) : (s.setRecord x r).postPointer = s.postPointer := rfl
@[simp] theorem State.setRecord_retryLine (x : Circuit) (r : CallRecord) : (s.setRecord x r).retryLine = s.retryLine := rfl
@[simp] theorem State.setRecord_setMeterJob (x : Circuit) (r : CallRecord) : (s.setRecord x r).setMeterJob = s.setMeterJob := rfl
@[simp] theorem State.setRecord_meterRequest (x : Circuit) (r : CallRecord) : (s.setRecord x r).meterRequest = s.meterRequest := rfl
@[simp] theorem State.setRecord_holdQueue (x : Circuit) (r : CallRecord) : (s.setRecord x r).holdQueue = s.holdQueue := rfl
@[simp] theorem State.setRecord_closingWaiters (x : Circuit) (r : CallRecord) : (s.setRecord x r).closingWaiters = s.closingWaiters := rfl
@[simp] theorem State.setRecord_seqCounter (x : Circuit) (r : CallRecord) : (s.setRecord x r).seqCounter = s.seqCounter := rfl
@[simp] theorem State.setRecord_writeIndex (x : Circuit) (r : CallRecord) : (s.setRecord x r).writeIndex = s.writeIndex := rfl
@[simp] theorem State.setRecord_readIndex (x : Circuit) (r : CallRecord) : (s.setRecord x r).readIndex = s.readIndex := rfl
@[simp] theorem State.setRecord_ringFull (x : Circuit) (r : CallRecord) : (s.setRecord x r).ringFull = s.ringFull := rfl
@[simp] theorem State.setRecord_burst (x : Circuit) (r : CallRecord) : (s.setRecord x r).burst = s.burst := rfl
@[simp] theorem State.setRecord_reports (x : Circuit) (r : CallRecord) : (s.setRecord x r).reports = s.reports := rfl
@[simp] theorem State.setRecord_latch (x : Circuit) (r : CallRecord) : (s.setRecord x r).latch = s.latch := rfl
@[simp] theorem State.setRecord_reportsLost (x : Circuit) (r : CallRecord) : (s.setRecord x r).reportsLost = s.reportsLost := rfl
@[simp] theorem State.setRecord_memoryError (x : Circuit) (r : CallRecord) : (s.setRecord x r).memoryError = s.memoryError := rfl
@[simp] theorem State.setRecord_guardedWrite (x : Circuit) (r : CallRecord) : (s.setRecord x r).guardedWrite = s.guardedWrite := rfl
@[simp] theorem State.setRecord_pending (x : Circuit) (r : CallRecord) : (s.setRecord x r).pending = s.pending := rfl

/-! ## setLine -/

@[simp] theorem State.setLine_phase (l : Line) (e : LineEntry) : (s.setLine l e).phase = s.phase := rfl
@[simp] theorem State.setLine_map (l : Line) (e : LineEntry) : (s.setLine l e).map = s.map := rfl
@[simp] theorem State.setLine_configFault (l : Line) (e : LineEntry) : (s.setLine l e).configFault = s.configFault := rfl
@[simp] theorem State.setLine_readPair (l : Line) (e : LineEntry) : (s.setLine l e).readPair = s.readPair := rfl
@[simp] theorem State.setLine_grantCount (l : Line) (e : LineEntry) : (s.setLine l e).grantCount = s.grantCount := rfl
@[simp] theorem State.setLine_owner (l : Line) (e : LineEntry) : (s.setLine l e).owner = s.owner := rfl
@[simp] theorem State.setLine_accessLeft (l : Line) (e : LineEntry) : (s.setLine l e).accessLeft = s.accessLeft := rfl
@[simp] theorem State.setLine_cycles (l : Line) (e : LineEntry) : (s.setLine l e).cycles = s.cycles := rfl
@[simp] theorem State.setLine_stretch (l : Line) (e : LineEntry) : (s.setLine l e).stretch = s.stretch := rfl
@[simp] theorem State.setLine_ends (l : Line) (e : LineEntry) : (s.setLine l e).ends = s.ends := rfl
@[simp] theorem State.setLine_mem (l : Line) (e : LineEntry) : (s.setLine l e).mem = s.mem := rfl
@[simp] theorem State.setLine_slots (l : Line) (e : LineEntry) : (s.setLine l e).slots = s.slots := rfl
@[simp] theorem State.setLine_orderQueue (l : Line) (e : LineEntry) : (s.setLine l e).orderQueue = s.orderQueue := rfl
@[simp] theorem State.setLine_threshold (l : Line) (e : LineEntry) : (s.setLine l e).threshold = s.threshold := rfl
@[simp] theorem State.setLine_dispatcher (l : Line) (e : LineEntry) : (s.setLine l e).dispatcher = s.dispatcher := rfl
@[simp] theorem State.setLine_results (l : Line) (e : LineEntry) : (s.setLine l e).results = s.results := rfl
@[simp] theorem State.setLine_links (l : Line) (e : LineEntry) : (s.setLine l e).links = s.links := rfl
@[simp] theorem State.setLine_circuitInService (l : Line) (e : LineEntry) : (s.setLine l e).circuitInService = s.circuitInService := rfl
@[simp] theorem State.setLine_faults (l : Line) (e : LineEntry) : (s.setLine l e).faults = s.faults := rfl
@[simp] theorem State.setLine_cordPtr (l : Line) (e : LineEntry) : (s.setLine l e).cordPtr = s.cordPtr := rfl
@[simp] theorem State.setLine_groupPtrs (l : Line) (e : LineEntry) : (s.setLine l e).groupPtrs = s.groupPtrs := rfl
@[simp] theorem State.setLine_operateSlots (l : Line) (e : LineEntry) : (s.setLine l e).operateSlots = s.operateSlots := rfl
@[simp] theorem State.setLine_waitList (l : Line) (e : LineEntry) : (s.setLine l e).waitList = s.waitList := rfl
@[simp] theorem State.setLine_txQueue (l : Line) (e : LineEntry) : (s.setLine l e).txQueue = s.txQueue := rfl
@[simp] theorem State.setLine_onWire (l : Line) (e : LineEntry) : (s.setLine l e).onWire = s.onWire := rfl
@[simp] theorem State.setLine_wireLeft (l : Line) (e : LineEntry) : (s.setLine l e).wireLeft = s.wireLeft := rfl
@[simp] theorem State.setLine_bitClock (l : Line) (e : LineEntry) : (s.setLine l e).bitClock = s.bitClock := rfl
@[simp] theorem State.setLine_outstanding (l : Line) (e : LineEntry) : (s.setLine l e).outstanding = s.outstanding := rfl
@[simp] theorem State.setLine_points (l : Line) (e : LineEntry) : (s.setLine l e).points = s.points := rfl
@[simp] theorem State.setLine_scanPins (l : Line) (e : LineEntry) : (s.setLine l e).scanPins = s.scanPins := rfl
@[simp] theorem State.setLine_scanDivider (l : Line) (e : LineEntry) : (s.setLine l e).scanDivider = s.scanDivider := rfl
@[simp] theorem State.setLine_records (l : Line) (e : LineEntry) : (s.setLine l e).records = s.records := rfl
@[simp] theorem State.setLine_tickDivider (l : Line) (e : LineEntry) : (s.setLine l e).tickDivider = s.tickDivider := rfl
@[simp] theorem State.setLine_weekMinute (l : Line) (e : LineEntry) : (s.setLine l e).weekMinute = s.weekMinute := rfl
@[simp] theorem State.setLine_second (l : Line) (e : LineEntry) : (s.setLine l e).second = s.second := rfl
@[simp] theorem State.setLine_tenths (l : Line) (e : LineEntry) : (s.setLine l e).tenths = s.tenths := rfl
@[simp] theorem State.setLine_timeUnset (l : Line) (e : LineEntry) : (s.setLine l e).timeUnset = s.timeUnset := rfl
@[simp] theorem State.setLine_calendar (l : Line) (e : LineEntry) : (s.setLine l e).calendar = s.calendar := rfl
@[simp] theorem State.setLine_band (l : Line) (e : LineEntry) : (s.setLine l e).band = s.band := rfl
@[simp] theorem State.setLine_tariff (l : Line) (e : LineEntry) : (s.setLine l e).tariff = s.tariff := rfl
@[simp] theorem State.setLine_postPointer (l : Line) (e : LineEntry) : (s.setLine l e).postPointer = s.postPointer := rfl
@[simp] theorem State.setLine_retryLine (l : Line) (e : LineEntry) : (s.setLine l e).retryLine = s.retryLine := rfl
@[simp] theorem State.setLine_setMeterJob (l : Line) (e : LineEntry) : (s.setLine l e).setMeterJob = s.setMeterJob := rfl
@[simp] theorem State.setLine_meterRequest (l : Line) (e : LineEntry) : (s.setLine l e).meterRequest = s.meterRequest := rfl
@[simp] theorem State.setLine_holdQueue (l : Line) (e : LineEntry) : (s.setLine l e).holdQueue = s.holdQueue := rfl
@[simp] theorem State.setLine_closingWaiters (l : Line) (e : LineEntry) : (s.setLine l e).closingWaiters = s.closingWaiters := rfl
@[simp] theorem State.setLine_seqCounter (l : Line) (e : LineEntry) : (s.setLine l e).seqCounter = s.seqCounter := rfl
@[simp] theorem State.setLine_writeIndex (l : Line) (e : LineEntry) : (s.setLine l e).writeIndex = s.writeIndex := rfl
@[simp] theorem State.setLine_readIndex (l : Line) (e : LineEntry) : (s.setLine l e).readIndex = s.readIndex := rfl
@[simp] theorem State.setLine_ringFull (l : Line) (e : LineEntry) : (s.setLine l e).ringFull = s.ringFull := rfl
@[simp] theorem State.setLine_burst (l : Line) (e : LineEntry) : (s.setLine l e).burst = s.burst := rfl
@[simp] theorem State.setLine_reports (l : Line) (e : LineEntry) : (s.setLine l e).reports = s.reports := rfl
@[simp] theorem State.setLine_latch (l : Line) (e : LineEntry) : (s.setLine l e).latch = s.latch := rfl
@[simp] theorem State.setLine_reportsLost (l : Line) (e : LineEntry) : (s.setLine l e).reportsLost = s.reportsLost := rfl
@[simp] theorem State.setLine_memoryError (l : Line) (e : LineEntry) : (s.setLine l e).memoryError = s.memoryError := rfl
@[simp] theorem State.setLine_guardedWrite (l : Line) (e : LineEntry) : (s.setLine l e).guardedWrite = s.guardedWrite := rfl
@[simp] theorem State.setLine_pending (l : Line) (e : LineEntry) : (s.setLine l e).pending = s.pending := rfl

/-! ## modifyLink -/

@[simp] theorem State.modifyLink_phase (gk : LineGroup × LinkNo) (f : Link → Link) : (s.modifyLink gk f).phase = s.phase := rfl
@[simp] theorem State.modifyLink_map (gk : LineGroup × LinkNo) (f : Link → Link) : (s.modifyLink gk f).map = s.map := rfl
@[simp] theorem State.modifyLink_configFault (gk : LineGroup × LinkNo) (f : Link → Link) : (s.modifyLink gk f).configFault = s.configFault := rfl
@[simp] theorem State.modifyLink_readPair (gk : LineGroup × LinkNo) (f : Link → Link) : (s.modifyLink gk f).readPair = s.readPair := rfl
@[simp] theorem State.modifyLink_grantCount (gk : LineGroup × LinkNo) (f : Link → Link) : (s.modifyLink gk f).grantCount = s.grantCount := rfl
@[simp] theorem State.modifyLink_owner (gk : LineGroup × LinkNo) (f : Link → Link) : (s.modifyLink gk f).owner = s.owner := rfl
@[simp] theorem State.modifyLink_accessLeft (gk : LineGroup × LinkNo) (f : Link → Link) : (s.modifyLink gk f).accessLeft = s.accessLeft := rfl
@[simp] theorem State.modifyLink_cycles (gk : LineGroup × LinkNo) (f : Link → Link) : (s.modifyLink gk f).cycles = s.cycles := rfl
@[simp] theorem State.modifyLink_stretch (gk : LineGroup × LinkNo) (f : Link → Link) : (s.modifyLink gk f).stretch = s.stretch := rfl
@[simp] theorem State.modifyLink_ends (gk : LineGroup × LinkNo) (f : Link → Link) : (s.modifyLink gk f).ends = s.ends := rfl
@[simp] theorem State.modifyLink_mem (gk : LineGroup × LinkNo) (f : Link → Link) : (s.modifyLink gk f).mem = s.mem := rfl
@[simp] theorem State.modifyLink_slots (gk : LineGroup × LinkNo) (f : Link → Link) : (s.modifyLink gk f).slots = s.slots := rfl
@[simp] theorem State.modifyLink_orderQueue (gk : LineGroup × LinkNo) (f : Link → Link) : (s.modifyLink gk f).orderQueue = s.orderQueue := rfl
@[simp] theorem State.modifyLink_threshold (gk : LineGroup × LinkNo) (f : Link → Link) : (s.modifyLink gk f).threshold = s.threshold := rfl
@[simp] theorem State.modifyLink_dispatcher (gk : LineGroup × LinkNo) (f : Link → Link) : (s.modifyLink gk f).dispatcher = s.dispatcher := rfl
@[simp] theorem State.modifyLink_results (gk : LineGroup × LinkNo) (f : Link → Link) : (s.modifyLink gk f).results = s.results := rfl
@[simp] theorem State.modifyLink_circuitInService (gk : LineGroup × LinkNo) (f : Link → Link) : (s.modifyLink gk f).circuitInService = s.circuitInService := rfl
@[simp] theorem State.modifyLink_faults (gk : LineGroup × LinkNo) (f : Link → Link) : (s.modifyLink gk f).faults = s.faults := rfl
@[simp] theorem State.modifyLink_cordPtr (gk : LineGroup × LinkNo) (f : Link → Link) : (s.modifyLink gk f).cordPtr = s.cordPtr := rfl
@[simp] theorem State.modifyLink_groupPtrs (gk : LineGroup × LinkNo) (f : Link → Link) : (s.modifyLink gk f).groupPtrs = s.groupPtrs := rfl
@[simp] theorem State.modifyLink_operateSlots (gk : LineGroup × LinkNo) (f : Link → Link) : (s.modifyLink gk f).operateSlots = s.operateSlots := rfl
@[simp] theorem State.modifyLink_waitList (gk : LineGroup × LinkNo) (f : Link → Link) : (s.modifyLink gk f).waitList = s.waitList := rfl
@[simp] theorem State.modifyLink_txQueue (gk : LineGroup × LinkNo) (f : Link → Link) : (s.modifyLink gk f).txQueue = s.txQueue := rfl
@[simp] theorem State.modifyLink_onWire (gk : LineGroup × LinkNo) (f : Link → Link) : (s.modifyLink gk f).onWire = s.onWire := rfl
@[simp] theorem State.modifyLink_wireLeft (gk : LineGroup × LinkNo) (f : Link → Link) : (s.modifyLink gk f).wireLeft = s.wireLeft := rfl
@[simp] theorem State.modifyLink_bitClock (gk : LineGroup × LinkNo) (f : Link → Link) : (s.modifyLink gk f).bitClock = s.bitClock := rfl
@[simp] theorem State.modifyLink_outstanding (gk : LineGroup × LinkNo) (f : Link → Link) : (s.modifyLink gk f).outstanding = s.outstanding := rfl
@[simp] theorem State.modifyLink_points (gk : LineGroup × LinkNo) (f : Link → Link) : (s.modifyLink gk f).points = s.points := rfl
@[simp] theorem State.modifyLink_scanPins (gk : LineGroup × LinkNo) (f : Link → Link) : (s.modifyLink gk f).scanPins = s.scanPins := rfl
@[simp] theorem State.modifyLink_scanDivider (gk : LineGroup × LinkNo) (f : Link → Link) : (s.modifyLink gk f).scanDivider = s.scanDivider := rfl
@[simp] theorem State.modifyLink_records (gk : LineGroup × LinkNo) (f : Link → Link) : (s.modifyLink gk f).records = s.records := rfl
@[simp] theorem State.modifyLink_lines (gk : LineGroup × LinkNo) (f : Link → Link) : (s.modifyLink gk f).lines = s.lines := rfl
@[simp] theorem State.modifyLink_tickDivider (gk : LineGroup × LinkNo) (f : Link → Link) : (s.modifyLink gk f).tickDivider = s.tickDivider := rfl
@[simp] theorem State.modifyLink_weekMinute (gk : LineGroup × LinkNo) (f : Link → Link) : (s.modifyLink gk f).weekMinute = s.weekMinute := rfl
@[simp] theorem State.modifyLink_second (gk : LineGroup × LinkNo) (f : Link → Link) : (s.modifyLink gk f).second = s.second := rfl
@[simp] theorem State.modifyLink_tenths (gk : LineGroup × LinkNo) (f : Link → Link) : (s.modifyLink gk f).tenths = s.tenths := rfl
@[simp] theorem State.modifyLink_timeUnset (gk : LineGroup × LinkNo) (f : Link → Link) : (s.modifyLink gk f).timeUnset = s.timeUnset := rfl
@[simp] theorem State.modifyLink_calendar (gk : LineGroup × LinkNo) (f : Link → Link) : (s.modifyLink gk f).calendar = s.calendar := rfl
@[simp] theorem State.modifyLink_band (gk : LineGroup × LinkNo) (f : Link → Link) : (s.modifyLink gk f).band = s.band := rfl
@[simp] theorem State.modifyLink_tariff (gk : LineGroup × LinkNo) (f : Link → Link) : (s.modifyLink gk f).tariff = s.tariff := rfl
@[simp] theorem State.modifyLink_postPointer (gk : LineGroup × LinkNo) (f : Link → Link) : (s.modifyLink gk f).postPointer = s.postPointer := rfl
@[simp] theorem State.modifyLink_retryLine (gk : LineGroup × LinkNo) (f : Link → Link) : (s.modifyLink gk f).retryLine = s.retryLine := rfl
@[simp] theorem State.modifyLink_setMeterJob (gk : LineGroup × LinkNo) (f : Link → Link) : (s.modifyLink gk f).setMeterJob = s.setMeterJob := rfl
@[simp] theorem State.modifyLink_meterRequest (gk : LineGroup × LinkNo) (f : Link → Link) : (s.modifyLink gk f).meterRequest = s.meterRequest := rfl
@[simp] theorem State.modifyLink_holdQueue (gk : LineGroup × LinkNo) (f : Link → Link) : (s.modifyLink gk f).holdQueue = s.holdQueue := rfl
@[simp] theorem State.modifyLink_closingWaiters (gk : LineGroup × LinkNo) (f : Link → Link) : (s.modifyLink gk f).closingWaiters = s.closingWaiters := rfl
@[simp] theorem State.modifyLink_seqCounter (gk : LineGroup × LinkNo) (f : Link → Link) : (s.modifyLink gk f).seqCounter = s.seqCounter := rfl
@[simp] theorem State.modifyLink_writeIndex (gk : LineGroup × LinkNo) (f : Link → Link) : (s.modifyLink gk f).writeIndex = s.writeIndex := rfl
@[simp] theorem State.modifyLink_readIndex (gk : LineGroup × LinkNo) (f : Link → Link) : (s.modifyLink gk f).readIndex = s.readIndex := rfl
@[simp] theorem State.modifyLink_ringFull (gk : LineGroup × LinkNo) (f : Link → Link) : (s.modifyLink gk f).ringFull = s.ringFull := rfl
@[simp] theorem State.modifyLink_burst (gk : LineGroup × LinkNo) (f : Link → Link) : (s.modifyLink gk f).burst = s.burst := rfl
@[simp] theorem State.modifyLink_reports (gk : LineGroup × LinkNo) (f : Link → Link) : (s.modifyLink gk f).reports = s.reports := rfl
@[simp] theorem State.modifyLink_latch (gk : LineGroup × LinkNo) (f : Link → Link) : (s.modifyLink gk f).latch = s.latch := rfl
@[simp] theorem State.modifyLink_reportsLost (gk : LineGroup × LinkNo) (f : Link → Link) : (s.modifyLink gk f).reportsLost = s.reportsLost := rfl
@[simp] theorem State.modifyLink_memoryError (gk : LineGroup × LinkNo) (f : Link → Link) : (s.modifyLink gk f).memoryError = s.memoryError := rfl
@[simp] theorem State.modifyLink_guardedWrite (gk : LineGroup × LinkNo) (f : Link → Link) : (s.modifyLink gk f).guardedWrite = s.guardedWrite := rfl
@[simp] theorem State.modifyLink_pending (gk : LineGroup × LinkNo) (f : Link → Link) : (s.modifyLink gk f).pending = s.pending := rfl

/-! ## modifySlot -/

@[simp] theorem State.modifySlot_phase (i : OrderSlot) (f : SlotEntry → SlotEntry) : (s.modifySlot i f).phase = s.phase := rfl
@[simp] theorem State.modifySlot_map (i : OrderSlot) (f : SlotEntry → SlotEntry) : (s.modifySlot i f).map = s.map := rfl
@[simp] theorem State.modifySlot_configFault (i : OrderSlot) (f : SlotEntry → SlotEntry) : (s.modifySlot i f).configFault = s.configFault := rfl
@[simp] theorem State.modifySlot_readPair (i : OrderSlot) (f : SlotEntry → SlotEntry) : (s.modifySlot i f).readPair = s.readPair := rfl
@[simp] theorem State.modifySlot_grantCount (i : OrderSlot) (f : SlotEntry → SlotEntry) : (s.modifySlot i f).grantCount = s.grantCount := rfl
@[simp] theorem State.modifySlot_owner (i : OrderSlot) (f : SlotEntry → SlotEntry) : (s.modifySlot i f).owner = s.owner := rfl
@[simp] theorem State.modifySlot_accessLeft (i : OrderSlot) (f : SlotEntry → SlotEntry) : (s.modifySlot i f).accessLeft = s.accessLeft := rfl
@[simp] theorem State.modifySlot_cycles (i : OrderSlot) (f : SlotEntry → SlotEntry) : (s.modifySlot i f).cycles = s.cycles := rfl
@[simp] theorem State.modifySlot_stretch (i : OrderSlot) (f : SlotEntry → SlotEntry) : (s.modifySlot i f).stretch = s.stretch := rfl
@[simp] theorem State.modifySlot_ends (i : OrderSlot) (f : SlotEntry → SlotEntry) : (s.modifySlot i f).ends = s.ends := rfl
@[simp] theorem State.modifySlot_mem (i : OrderSlot) (f : SlotEntry → SlotEntry) : (s.modifySlot i f).mem = s.mem := rfl
@[simp] theorem State.modifySlot_orderQueue (i : OrderSlot) (f : SlotEntry → SlotEntry) : (s.modifySlot i f).orderQueue = s.orderQueue := rfl
@[simp] theorem State.modifySlot_threshold (i : OrderSlot) (f : SlotEntry → SlotEntry) : (s.modifySlot i f).threshold = s.threshold := rfl
@[simp] theorem State.modifySlot_dispatcher (i : OrderSlot) (f : SlotEntry → SlotEntry) : (s.modifySlot i f).dispatcher = s.dispatcher := rfl
@[simp] theorem State.modifySlot_results (i : OrderSlot) (f : SlotEntry → SlotEntry) : (s.modifySlot i f).results = s.results := rfl
@[simp] theorem State.modifySlot_links (i : OrderSlot) (f : SlotEntry → SlotEntry) : (s.modifySlot i f).links = s.links := rfl
@[simp] theorem State.modifySlot_circuitInService (i : OrderSlot) (f : SlotEntry → SlotEntry) : (s.modifySlot i f).circuitInService = s.circuitInService := rfl
@[simp] theorem State.modifySlot_faults (i : OrderSlot) (f : SlotEntry → SlotEntry) : (s.modifySlot i f).faults = s.faults := rfl
@[simp] theorem State.modifySlot_cordPtr (i : OrderSlot) (f : SlotEntry → SlotEntry) : (s.modifySlot i f).cordPtr = s.cordPtr := rfl
@[simp] theorem State.modifySlot_groupPtrs (i : OrderSlot) (f : SlotEntry → SlotEntry) : (s.modifySlot i f).groupPtrs = s.groupPtrs := rfl
@[simp] theorem State.modifySlot_operateSlots (i : OrderSlot) (f : SlotEntry → SlotEntry) : (s.modifySlot i f).operateSlots = s.operateSlots := rfl
@[simp] theorem State.modifySlot_waitList (i : OrderSlot) (f : SlotEntry → SlotEntry) : (s.modifySlot i f).waitList = s.waitList := rfl
@[simp] theorem State.modifySlot_txQueue (i : OrderSlot) (f : SlotEntry → SlotEntry) : (s.modifySlot i f).txQueue = s.txQueue := rfl
@[simp] theorem State.modifySlot_onWire (i : OrderSlot) (f : SlotEntry → SlotEntry) : (s.modifySlot i f).onWire = s.onWire := rfl
@[simp] theorem State.modifySlot_wireLeft (i : OrderSlot) (f : SlotEntry → SlotEntry) : (s.modifySlot i f).wireLeft = s.wireLeft := rfl
@[simp] theorem State.modifySlot_bitClock (i : OrderSlot) (f : SlotEntry → SlotEntry) : (s.modifySlot i f).bitClock = s.bitClock := rfl
@[simp] theorem State.modifySlot_outstanding (i : OrderSlot) (f : SlotEntry → SlotEntry) : (s.modifySlot i f).outstanding = s.outstanding := rfl
@[simp] theorem State.modifySlot_points (i : OrderSlot) (f : SlotEntry → SlotEntry) : (s.modifySlot i f).points = s.points := rfl
@[simp] theorem State.modifySlot_scanPins (i : OrderSlot) (f : SlotEntry → SlotEntry) : (s.modifySlot i f).scanPins = s.scanPins := rfl
@[simp] theorem State.modifySlot_scanDivider (i : OrderSlot) (f : SlotEntry → SlotEntry) : (s.modifySlot i f).scanDivider = s.scanDivider := rfl
@[simp] theorem State.modifySlot_records (i : OrderSlot) (f : SlotEntry → SlotEntry) : (s.modifySlot i f).records = s.records := rfl
@[simp] theorem State.modifySlot_lines (i : OrderSlot) (f : SlotEntry → SlotEntry) : (s.modifySlot i f).lines = s.lines := rfl
@[simp] theorem State.modifySlot_tickDivider (i : OrderSlot) (f : SlotEntry → SlotEntry) : (s.modifySlot i f).tickDivider = s.tickDivider := rfl
@[simp] theorem State.modifySlot_weekMinute (i : OrderSlot) (f : SlotEntry → SlotEntry) : (s.modifySlot i f).weekMinute = s.weekMinute := rfl
@[simp] theorem State.modifySlot_second (i : OrderSlot) (f : SlotEntry → SlotEntry) : (s.modifySlot i f).second = s.second := rfl
@[simp] theorem State.modifySlot_tenths (i : OrderSlot) (f : SlotEntry → SlotEntry) : (s.modifySlot i f).tenths = s.tenths := rfl
@[simp] theorem State.modifySlot_timeUnset (i : OrderSlot) (f : SlotEntry → SlotEntry) : (s.modifySlot i f).timeUnset = s.timeUnset := rfl
@[simp] theorem State.modifySlot_calendar (i : OrderSlot) (f : SlotEntry → SlotEntry) : (s.modifySlot i f).calendar = s.calendar := rfl
@[simp] theorem State.modifySlot_band (i : OrderSlot) (f : SlotEntry → SlotEntry) : (s.modifySlot i f).band = s.band := rfl
@[simp] theorem State.modifySlot_tariff (i : OrderSlot) (f : SlotEntry → SlotEntry) : (s.modifySlot i f).tariff = s.tariff := rfl
@[simp] theorem State.modifySlot_postPointer (i : OrderSlot) (f : SlotEntry → SlotEntry) : (s.modifySlot i f).postPointer = s.postPointer := rfl
@[simp] theorem State.modifySlot_retryLine (i : OrderSlot) (f : SlotEntry → SlotEntry) : (s.modifySlot i f).retryLine = s.retryLine := rfl
@[simp] theorem State.modifySlot_setMeterJob (i : OrderSlot) (f : SlotEntry → SlotEntry) : (s.modifySlot i f).setMeterJob = s.setMeterJob := rfl
@[simp] theorem State.modifySlot_meterRequest (i : OrderSlot) (f : SlotEntry → SlotEntry) : (s.modifySlot i f).meterRequest = s.meterRequest := rfl
@[simp] theorem State.modifySlot_holdQueue (i : OrderSlot) (f : SlotEntry → SlotEntry) : (s.modifySlot i f).holdQueue = s.holdQueue := rfl
@[simp] theorem State.modifySlot_closingWaiters (i : OrderSlot) (f : SlotEntry → SlotEntry) : (s.modifySlot i f).closingWaiters = s.closingWaiters := rfl
@[simp] theorem State.modifySlot_seqCounter (i : OrderSlot) (f : SlotEntry → SlotEntry) : (s.modifySlot i f).seqCounter = s.seqCounter := rfl
@[simp] theorem State.modifySlot_writeIndex (i : OrderSlot) (f : SlotEntry → SlotEntry) : (s.modifySlot i f).writeIndex = s.writeIndex := rfl
@[simp] theorem State.modifySlot_readIndex (i : OrderSlot) (f : SlotEntry → SlotEntry) : (s.modifySlot i f).readIndex = s.readIndex := rfl
@[simp] theorem State.modifySlot_ringFull (i : OrderSlot) (f : SlotEntry → SlotEntry) : (s.modifySlot i f).ringFull = s.ringFull := rfl
@[simp] theorem State.modifySlot_burst (i : OrderSlot) (f : SlotEntry → SlotEntry) : (s.modifySlot i f).burst = s.burst := rfl
@[simp] theorem State.modifySlot_reports (i : OrderSlot) (f : SlotEntry → SlotEntry) : (s.modifySlot i f).reports = s.reports := rfl
@[simp] theorem State.modifySlot_latch (i : OrderSlot) (f : SlotEntry → SlotEntry) : (s.modifySlot i f).latch = s.latch := rfl
@[simp] theorem State.modifySlot_reportsLost (i : OrderSlot) (f : SlotEntry → SlotEntry) : (s.modifySlot i f).reportsLost = s.reportsLost := rfl
@[simp] theorem State.modifySlot_memoryError (i : OrderSlot) (f : SlotEntry → SlotEntry) : (s.modifySlot i f).memoryError = s.memoryError := rfl
@[simp] theorem State.modifySlot_guardedWrite (i : OrderSlot) (f : SlotEntry → SlotEntry) : (s.modifySlot i f).guardedWrite = s.guardedWrite := rfl
@[simp] theorem State.modifySlot_pending (i : OrderSlot) (f : SlotEntry → SlotEntry) : (s.modifySlot i f).pending = s.pending := rfl

/-! ## setPoint -/

@[simp] theorem State.setPoint_phase (p : Point) (st : PointState) : (s.setPoint p st).phase = s.phase := rfl
@[simp] theorem State.setPoint_map (p : Point) (st : PointState) : (s.setPoint p st).map = s.map := rfl
@[simp] theorem State.setPoint_configFault (p : Point) (st : PointState) : (s.setPoint p st).configFault = s.configFault := rfl
@[simp] theorem State.setPoint_readPair (p : Point) (st : PointState) : (s.setPoint p st).readPair = s.readPair := rfl
@[simp] theorem State.setPoint_grantCount (p : Point) (st : PointState) : (s.setPoint p st).grantCount = s.grantCount := rfl
@[simp] theorem State.setPoint_owner (p : Point) (st : PointState) : (s.setPoint p st).owner = s.owner := rfl
@[simp] theorem State.setPoint_accessLeft (p : Point) (st : PointState) : (s.setPoint p st).accessLeft = s.accessLeft := rfl
@[simp] theorem State.setPoint_cycles (p : Point) (st : PointState) : (s.setPoint p st).cycles = s.cycles := rfl
@[simp] theorem State.setPoint_stretch (p : Point) (st : PointState) : (s.setPoint p st).stretch = s.stretch := rfl
@[simp] theorem State.setPoint_ends (p : Point) (st : PointState) : (s.setPoint p st).ends = s.ends := rfl
@[simp] theorem State.setPoint_mem (p : Point) (st : PointState) : (s.setPoint p st).mem = s.mem := rfl
@[simp] theorem State.setPoint_slots (p : Point) (st : PointState) : (s.setPoint p st).slots = s.slots := rfl
@[simp] theorem State.setPoint_orderQueue (p : Point) (st : PointState) : (s.setPoint p st).orderQueue = s.orderQueue := rfl
@[simp] theorem State.setPoint_threshold (p : Point) (st : PointState) : (s.setPoint p st).threshold = s.threshold := rfl
@[simp] theorem State.setPoint_dispatcher (p : Point) (st : PointState) : (s.setPoint p st).dispatcher = s.dispatcher := rfl
@[simp] theorem State.setPoint_results (p : Point) (st : PointState) : (s.setPoint p st).results = s.results := rfl
@[simp] theorem State.setPoint_links (p : Point) (st : PointState) : (s.setPoint p st).links = s.links := rfl
@[simp] theorem State.setPoint_circuitInService (p : Point) (st : PointState) : (s.setPoint p st).circuitInService = s.circuitInService := rfl
@[simp] theorem State.setPoint_faults (p : Point) (st : PointState) : (s.setPoint p st).faults = s.faults := rfl
@[simp] theorem State.setPoint_cordPtr (p : Point) (st : PointState) : (s.setPoint p st).cordPtr = s.cordPtr := rfl
@[simp] theorem State.setPoint_groupPtrs (p : Point) (st : PointState) : (s.setPoint p st).groupPtrs = s.groupPtrs := rfl
@[simp] theorem State.setPoint_operateSlots (p : Point) (st : PointState) : (s.setPoint p st).operateSlots = s.operateSlots := rfl
@[simp] theorem State.setPoint_waitList (p : Point) (st : PointState) : (s.setPoint p st).waitList = s.waitList := rfl
@[simp] theorem State.setPoint_txQueue (p : Point) (st : PointState) : (s.setPoint p st).txQueue = s.txQueue := rfl
@[simp] theorem State.setPoint_onWire (p : Point) (st : PointState) : (s.setPoint p st).onWire = s.onWire := rfl
@[simp] theorem State.setPoint_wireLeft (p : Point) (st : PointState) : (s.setPoint p st).wireLeft = s.wireLeft := rfl
@[simp] theorem State.setPoint_bitClock (p : Point) (st : PointState) : (s.setPoint p st).bitClock = s.bitClock := rfl
@[simp] theorem State.setPoint_outstanding (p : Point) (st : PointState) : (s.setPoint p st).outstanding = s.outstanding := rfl
@[simp] theorem State.setPoint_scanPins (p : Point) (st : PointState) : (s.setPoint p st).scanPins = s.scanPins := rfl
@[simp] theorem State.setPoint_scanDivider (p : Point) (st : PointState) : (s.setPoint p st).scanDivider = s.scanDivider := rfl
@[simp] theorem State.setPoint_records (p : Point) (st : PointState) : (s.setPoint p st).records = s.records := rfl
@[simp] theorem State.setPoint_lines (p : Point) (st : PointState) : (s.setPoint p st).lines = s.lines := rfl
@[simp] theorem State.setPoint_tickDivider (p : Point) (st : PointState) : (s.setPoint p st).tickDivider = s.tickDivider := rfl
@[simp] theorem State.setPoint_weekMinute (p : Point) (st : PointState) : (s.setPoint p st).weekMinute = s.weekMinute := rfl
@[simp] theorem State.setPoint_second (p : Point) (st : PointState) : (s.setPoint p st).second = s.second := rfl
@[simp] theorem State.setPoint_tenths (p : Point) (st : PointState) : (s.setPoint p st).tenths = s.tenths := rfl
@[simp] theorem State.setPoint_timeUnset (p : Point) (st : PointState) : (s.setPoint p st).timeUnset = s.timeUnset := rfl
@[simp] theorem State.setPoint_calendar (p : Point) (st : PointState) : (s.setPoint p st).calendar = s.calendar := rfl
@[simp] theorem State.setPoint_band (p : Point) (st : PointState) : (s.setPoint p st).band = s.band := rfl
@[simp] theorem State.setPoint_tariff (p : Point) (st : PointState) : (s.setPoint p st).tariff = s.tariff := rfl
@[simp] theorem State.setPoint_postPointer (p : Point) (st : PointState) : (s.setPoint p st).postPointer = s.postPointer := rfl
@[simp] theorem State.setPoint_retryLine (p : Point) (st : PointState) : (s.setPoint p st).retryLine = s.retryLine := rfl
@[simp] theorem State.setPoint_setMeterJob (p : Point) (st : PointState) : (s.setPoint p st).setMeterJob = s.setMeterJob := rfl
@[simp] theorem State.setPoint_meterRequest (p : Point) (st : PointState) : (s.setPoint p st).meterRequest = s.meterRequest := rfl
@[simp] theorem State.setPoint_holdQueue (p : Point) (st : PointState) : (s.setPoint p st).holdQueue = s.holdQueue := rfl
@[simp] theorem State.setPoint_closingWaiters (p : Point) (st : PointState) : (s.setPoint p st).closingWaiters = s.closingWaiters := rfl
@[simp] theorem State.setPoint_seqCounter (p : Point) (st : PointState) : (s.setPoint p st).seqCounter = s.seqCounter := rfl
@[simp] theorem State.setPoint_writeIndex (p : Point) (st : PointState) : (s.setPoint p st).writeIndex = s.writeIndex := rfl
@[simp] theorem State.setPoint_readIndex (p : Point) (st : PointState) : (s.setPoint p st).readIndex = s.readIndex := rfl
@[simp] theorem State.setPoint_ringFull (p : Point) (st : PointState) : (s.setPoint p st).ringFull = s.ringFull := rfl
@[simp] theorem State.setPoint_burst (p : Point) (st : PointState) : (s.setPoint p st).burst = s.burst := rfl
@[simp] theorem State.setPoint_reports (p : Point) (st : PointState) : (s.setPoint p st).reports = s.reports := rfl
@[simp] theorem State.setPoint_latch (p : Point) (st : PointState) : (s.setPoint p st).latch = s.latch := rfl
@[simp] theorem State.setPoint_reportsLost (p : Point) (st : PointState) : (s.setPoint p st).reportsLost = s.reportsLost := rfl
@[simp] theorem State.setPoint_memoryError (p : Point) (st : PointState) : (s.setPoint p st).memoryError = s.memoryError := rfl
@[simp] theorem State.setPoint_guardedWrite (p : Point) (st : PointState) : (s.setPoint p st).guardedWrite = s.guardedWrite := rfl
@[simp] theorem State.setPoint_pending (p : Point) (st : PointState) : (s.setPoint p st).pending = s.pending := rfl

/-! ## writeMem -/

@[simp] theorem State.writeMem_phase (a w : Word) : (s.writeMem a w).phase = s.phase := rfl
@[simp] theorem State.writeMem_map (a w : Word) : (s.writeMem a w).map = s.map := rfl
@[simp] theorem State.writeMem_configFault (a w : Word) : (s.writeMem a w).configFault = s.configFault := rfl
@[simp] theorem State.writeMem_readPair (a w : Word) : (s.writeMem a w).readPair = s.readPair := rfl
@[simp] theorem State.writeMem_grantCount (a w : Word) : (s.writeMem a w).grantCount = s.grantCount := rfl
@[simp] theorem State.writeMem_owner (a w : Word) : (s.writeMem a w).owner = s.owner := rfl
@[simp] theorem State.writeMem_accessLeft (a w : Word) : (s.writeMem a w).accessLeft = s.accessLeft := rfl
@[simp] theorem State.writeMem_cycles (a w : Word) : (s.writeMem a w).cycles = s.cycles := rfl
@[simp] theorem State.writeMem_stretch (a w : Word) : (s.writeMem a w).stretch = s.stretch := rfl
@[simp] theorem State.writeMem_ends (a w : Word) : (s.writeMem a w).ends = s.ends := rfl
@[simp] theorem State.writeMem_slots (a w : Word) : (s.writeMem a w).slots = s.slots := rfl
@[simp] theorem State.writeMem_orderQueue (a w : Word) : (s.writeMem a w).orderQueue = s.orderQueue := rfl
@[simp] theorem State.writeMem_threshold (a w : Word) : (s.writeMem a w).threshold = s.threshold := rfl
@[simp] theorem State.writeMem_dispatcher (a w : Word) : (s.writeMem a w).dispatcher = s.dispatcher := rfl
@[simp] theorem State.writeMem_results (a w : Word) : (s.writeMem a w).results = s.results := rfl
@[simp] theorem State.writeMem_links (a w : Word) : (s.writeMem a w).links = s.links := rfl
@[simp] theorem State.writeMem_circuitInService (a w : Word) : (s.writeMem a w).circuitInService = s.circuitInService := rfl
@[simp] theorem State.writeMem_faults (a w : Word) : (s.writeMem a w).faults = s.faults := rfl
@[simp] theorem State.writeMem_cordPtr (a w : Word) : (s.writeMem a w).cordPtr = s.cordPtr := rfl
@[simp] theorem State.writeMem_groupPtrs (a w : Word) : (s.writeMem a w).groupPtrs = s.groupPtrs := rfl
@[simp] theorem State.writeMem_operateSlots (a w : Word) : (s.writeMem a w).operateSlots = s.operateSlots := rfl
@[simp] theorem State.writeMem_waitList (a w : Word) : (s.writeMem a w).waitList = s.waitList := rfl
@[simp] theorem State.writeMem_txQueue (a w : Word) : (s.writeMem a w).txQueue = s.txQueue := rfl
@[simp] theorem State.writeMem_onWire (a w : Word) : (s.writeMem a w).onWire = s.onWire := rfl
@[simp] theorem State.writeMem_wireLeft (a w : Word) : (s.writeMem a w).wireLeft = s.wireLeft := rfl
@[simp] theorem State.writeMem_bitClock (a w : Word) : (s.writeMem a w).bitClock = s.bitClock := rfl
@[simp] theorem State.writeMem_outstanding (a w : Word) : (s.writeMem a w).outstanding = s.outstanding := rfl
@[simp] theorem State.writeMem_points (a w : Word) : (s.writeMem a w).points = s.points := rfl
@[simp] theorem State.writeMem_scanPins (a w : Word) : (s.writeMem a w).scanPins = s.scanPins := rfl
@[simp] theorem State.writeMem_scanDivider (a w : Word) : (s.writeMem a w).scanDivider = s.scanDivider := rfl
@[simp] theorem State.writeMem_records (a w : Word) : (s.writeMem a w).records = s.records := rfl
@[simp] theorem State.writeMem_lines (a w : Word) : (s.writeMem a w).lines = s.lines := rfl
@[simp] theorem State.writeMem_tickDivider (a w : Word) : (s.writeMem a w).tickDivider = s.tickDivider := rfl
@[simp] theorem State.writeMem_weekMinute (a w : Word) : (s.writeMem a w).weekMinute = s.weekMinute := rfl
@[simp] theorem State.writeMem_second (a w : Word) : (s.writeMem a w).second = s.second := rfl
@[simp] theorem State.writeMem_tenths (a w : Word) : (s.writeMem a w).tenths = s.tenths := rfl
@[simp] theorem State.writeMem_timeUnset (a w : Word) : (s.writeMem a w).timeUnset = s.timeUnset := rfl
@[simp] theorem State.writeMem_calendar (a w : Word) : (s.writeMem a w).calendar = s.calendar := rfl
@[simp] theorem State.writeMem_band (a w : Word) : (s.writeMem a w).band = s.band := rfl
@[simp] theorem State.writeMem_tariff (a w : Word) : (s.writeMem a w).tariff = s.tariff := rfl
@[simp] theorem State.writeMem_postPointer (a w : Word) : (s.writeMem a w).postPointer = s.postPointer := rfl
@[simp] theorem State.writeMem_retryLine (a w : Word) : (s.writeMem a w).retryLine = s.retryLine := rfl
@[simp] theorem State.writeMem_setMeterJob (a w : Word) : (s.writeMem a w).setMeterJob = s.setMeterJob := rfl
@[simp] theorem State.writeMem_meterRequest (a w : Word) : (s.writeMem a w).meterRequest = s.meterRequest := rfl
@[simp] theorem State.writeMem_holdQueue (a w : Word) : (s.writeMem a w).holdQueue = s.holdQueue := rfl
@[simp] theorem State.writeMem_closingWaiters (a w : Word) : (s.writeMem a w).closingWaiters = s.closingWaiters := rfl
@[simp] theorem State.writeMem_seqCounter (a w : Word) : (s.writeMem a w).seqCounter = s.seqCounter := rfl
@[simp] theorem State.writeMem_writeIndex (a w : Word) : (s.writeMem a w).writeIndex = s.writeIndex := rfl
@[simp] theorem State.writeMem_readIndex (a w : Word) : (s.writeMem a w).readIndex = s.readIndex := rfl
@[simp] theorem State.writeMem_ringFull (a w : Word) : (s.writeMem a w).ringFull = s.ringFull := rfl
@[simp] theorem State.writeMem_burst (a w : Word) : (s.writeMem a w).burst = s.burst := rfl
@[simp] theorem State.writeMem_reports (a w : Word) : (s.writeMem a w).reports = s.reports := rfl
@[simp] theorem State.writeMem_latch (a w : Word) : (s.writeMem a w).latch = s.latch := rfl
@[simp] theorem State.writeMem_reportsLost (a w : Word) : (s.writeMem a w).reportsLost = s.reportsLost := rfl
@[simp] theorem State.writeMem_memoryError (a w : Word) : (s.writeMem a w).memoryError = s.memoryError := rfl
@[simp] theorem State.writeMem_guardedWrite (a w : Word) : (s.writeMem a w).guardedWrite = s.guardedWrite := rfl
@[simp] theorem State.writeMem_pending (a w : Word) : (s.writeMem a w).pending = s.pending := rfl

/-! ## handResult -/

@[simp] theorem State.handResult_phase (i : OrderSlot) (c : ResultCode) (x : Option Circuit) : (s.handResult i c x).phase = s.phase := rfl
@[simp] theorem State.handResult_map (i : OrderSlot) (c : ResultCode) (x : Option Circuit) : (s.handResult i c x).map = s.map := rfl
@[simp] theorem State.handResult_configFault (i : OrderSlot) (c : ResultCode) (x : Option Circuit) : (s.handResult i c x).configFault = s.configFault := rfl
@[simp] theorem State.handResult_readPair (i : OrderSlot) (c : ResultCode) (x : Option Circuit) : (s.handResult i c x).readPair = s.readPair := rfl
@[simp] theorem State.handResult_grantCount (i : OrderSlot) (c : ResultCode) (x : Option Circuit) : (s.handResult i c x).grantCount = s.grantCount := rfl
@[simp] theorem State.handResult_owner (i : OrderSlot) (c : ResultCode) (x : Option Circuit) : (s.handResult i c x).owner = s.owner := rfl
@[simp] theorem State.handResult_accessLeft (i : OrderSlot) (c : ResultCode) (x : Option Circuit) : (s.handResult i c x).accessLeft = s.accessLeft := rfl
@[simp] theorem State.handResult_cycles (i : OrderSlot) (c : ResultCode) (x : Option Circuit) : (s.handResult i c x).cycles = s.cycles := rfl
@[simp] theorem State.handResult_stretch (i : OrderSlot) (c : ResultCode) (x : Option Circuit) : (s.handResult i c x).stretch = s.stretch := rfl
@[simp] theorem State.handResult_ends (i : OrderSlot) (c : ResultCode) (x : Option Circuit) : (s.handResult i c x).ends = s.ends := rfl
@[simp] theorem State.handResult_mem (i : OrderSlot) (c : ResultCode) (x : Option Circuit) : (s.handResult i c x).mem = s.mem := rfl
@[simp] theorem State.handResult_slots (i : OrderSlot) (c : ResultCode) (x : Option Circuit) : (s.handResult i c x).slots = s.slots := rfl
@[simp] theorem State.handResult_orderQueue (i : OrderSlot) (c : ResultCode) (x : Option Circuit) : (s.handResult i c x).orderQueue = s.orderQueue := rfl
@[simp] theorem State.handResult_threshold (i : OrderSlot) (c : ResultCode) (x : Option Circuit) : (s.handResult i c x).threshold = s.threshold := rfl
@[simp] theorem State.handResult_dispatcher (i : OrderSlot) (c : ResultCode) (x : Option Circuit) : (s.handResult i c x).dispatcher = s.dispatcher := rfl
@[simp] theorem State.handResult_links (i : OrderSlot) (c : ResultCode) (x : Option Circuit) : (s.handResult i c x).links = s.links := rfl
@[simp] theorem State.handResult_circuitInService (i : OrderSlot) (c : ResultCode) (x : Option Circuit) : (s.handResult i c x).circuitInService = s.circuitInService := rfl
@[simp] theorem State.handResult_faults (i : OrderSlot) (c : ResultCode) (x : Option Circuit) : (s.handResult i c x).faults = s.faults := rfl
@[simp] theorem State.handResult_cordPtr (i : OrderSlot) (c : ResultCode) (x : Option Circuit) : (s.handResult i c x).cordPtr = s.cordPtr := rfl
@[simp] theorem State.handResult_groupPtrs (i : OrderSlot) (c : ResultCode) (x : Option Circuit) : (s.handResult i c x).groupPtrs = s.groupPtrs := rfl
@[simp] theorem State.handResult_operateSlots (i : OrderSlot) (c : ResultCode) (x : Option Circuit) : (s.handResult i c x).operateSlots = s.operateSlots := rfl
@[simp] theorem State.handResult_waitList (i : OrderSlot) (c : ResultCode) (x : Option Circuit) : (s.handResult i c x).waitList = s.waitList := rfl
@[simp] theorem State.handResult_txQueue (i : OrderSlot) (c : ResultCode) (x : Option Circuit) : (s.handResult i c x).txQueue = s.txQueue := rfl
@[simp] theorem State.handResult_onWire (i : OrderSlot) (c : ResultCode) (x : Option Circuit) : (s.handResult i c x).onWire = s.onWire := rfl
@[simp] theorem State.handResult_wireLeft (i : OrderSlot) (c : ResultCode) (x : Option Circuit) : (s.handResult i c x).wireLeft = s.wireLeft := rfl
@[simp] theorem State.handResult_bitClock (i : OrderSlot) (c : ResultCode) (x : Option Circuit) : (s.handResult i c x).bitClock = s.bitClock := rfl
@[simp] theorem State.handResult_outstanding (i : OrderSlot) (c : ResultCode) (x : Option Circuit) : (s.handResult i c x).outstanding = s.outstanding := rfl
@[simp] theorem State.handResult_points (i : OrderSlot) (c : ResultCode) (x : Option Circuit) : (s.handResult i c x).points = s.points := rfl
@[simp] theorem State.handResult_scanPins (i : OrderSlot) (c : ResultCode) (x : Option Circuit) : (s.handResult i c x).scanPins = s.scanPins := rfl
@[simp] theorem State.handResult_scanDivider (i : OrderSlot) (c : ResultCode) (x : Option Circuit) : (s.handResult i c x).scanDivider = s.scanDivider := rfl
@[simp] theorem State.handResult_records (i : OrderSlot) (c : ResultCode) (x : Option Circuit) : (s.handResult i c x).records = s.records := rfl
@[simp] theorem State.handResult_lines (i : OrderSlot) (c : ResultCode) (x : Option Circuit) : (s.handResult i c x).lines = s.lines := rfl
@[simp] theorem State.handResult_tickDivider (i : OrderSlot) (c : ResultCode) (x : Option Circuit) : (s.handResult i c x).tickDivider = s.tickDivider := rfl
@[simp] theorem State.handResult_weekMinute (i : OrderSlot) (c : ResultCode) (x : Option Circuit) : (s.handResult i c x).weekMinute = s.weekMinute := rfl
@[simp] theorem State.handResult_second (i : OrderSlot) (c : ResultCode) (x : Option Circuit) : (s.handResult i c x).second = s.second := rfl
@[simp] theorem State.handResult_tenths (i : OrderSlot) (c : ResultCode) (x : Option Circuit) : (s.handResult i c x).tenths = s.tenths := rfl
@[simp] theorem State.handResult_timeUnset (i : OrderSlot) (c : ResultCode) (x : Option Circuit) : (s.handResult i c x).timeUnset = s.timeUnset := rfl
@[simp] theorem State.handResult_calendar (i : OrderSlot) (c : ResultCode) (x : Option Circuit) : (s.handResult i c x).calendar = s.calendar := rfl
@[simp] theorem State.handResult_band (i : OrderSlot) (c : ResultCode) (x : Option Circuit) : (s.handResult i c x).band = s.band := rfl
@[simp] theorem State.handResult_tariff (i : OrderSlot) (c : ResultCode) (x : Option Circuit) : (s.handResult i c x).tariff = s.tariff := rfl
@[simp] theorem State.handResult_postPointer (i : OrderSlot) (c : ResultCode) (x : Option Circuit) : (s.handResult i c x).postPointer = s.postPointer := rfl
@[simp] theorem State.handResult_retryLine (i : OrderSlot) (c : ResultCode) (x : Option Circuit) : (s.handResult i c x).retryLine = s.retryLine := rfl
@[simp] theorem State.handResult_setMeterJob (i : OrderSlot) (c : ResultCode) (x : Option Circuit) : (s.handResult i c x).setMeterJob = s.setMeterJob := rfl
@[simp] theorem State.handResult_meterRequest (i : OrderSlot) (c : ResultCode) (x : Option Circuit) : (s.handResult i c x).meterRequest = s.meterRequest := rfl
@[simp] theorem State.handResult_holdQueue (i : OrderSlot) (c : ResultCode) (x : Option Circuit) : (s.handResult i c x).holdQueue = s.holdQueue := rfl
@[simp] theorem State.handResult_closingWaiters (i : OrderSlot) (c : ResultCode) (x : Option Circuit) : (s.handResult i c x).closingWaiters = s.closingWaiters := rfl
@[simp] theorem State.handResult_seqCounter (i : OrderSlot) (c : ResultCode) (x : Option Circuit) : (s.handResult i c x).seqCounter = s.seqCounter := rfl
@[simp] theorem State.handResult_writeIndex (i : OrderSlot) (c : ResultCode) (x : Option Circuit) : (s.handResult i c x).writeIndex = s.writeIndex := rfl
@[simp] theorem State.handResult_readIndex (i : OrderSlot) (c : ResultCode) (x : Option Circuit) : (s.handResult i c x).readIndex = s.readIndex := rfl
@[simp] theorem State.handResult_ringFull (i : OrderSlot) (c : ResultCode) (x : Option Circuit) : (s.handResult i c x).ringFull = s.ringFull := rfl
@[simp] theorem State.handResult_burst (i : OrderSlot) (c : ResultCode) (x : Option Circuit) : (s.handResult i c x).burst = s.burst := rfl
@[simp] theorem State.handResult_reports (i : OrderSlot) (c : ResultCode) (x : Option Circuit) : (s.handResult i c x).reports = s.reports := rfl
@[simp] theorem State.handResult_latch (i : OrderSlot) (c : ResultCode) (x : Option Circuit) : (s.handResult i c x).latch = s.latch := rfl
@[simp] theorem State.handResult_reportsLost (i : OrderSlot) (c : ResultCode) (x : Option Circuit) : (s.handResult i c x).reportsLost = s.reportsLost := rfl
@[simp] theorem State.handResult_memoryError (i : OrderSlot) (c : ResultCode) (x : Option Circuit) : (s.handResult i c x).memoryError = s.memoryError := rfl
@[simp] theorem State.handResult_guardedWrite (i : OrderSlot) (c : ResultCode) (x : Option Circuit) : (s.handResult i c x).guardedWrite = s.guardedWrite := rfl
@[simp] theorem State.handResult_pending (i : OrderSlot) (c : ResultCode) (x : Option Circuit) : (s.handResult i c x).pending = s.pending := rfl

/-! ## issue -/

@[simp] theorem State.issue_phase (c : PortCommand) : (s.issue c).phase = s.phase := rfl
@[simp] theorem State.issue_map (c : PortCommand) : (s.issue c).map = s.map := rfl
@[simp] theorem State.issue_configFault (c : PortCommand) : (s.issue c).configFault = s.configFault := rfl
@[simp] theorem State.issue_readPair (c : PortCommand) : (s.issue c).readPair = s.readPair := rfl
@[simp] theorem State.issue_grantCount (c : PortCommand) : (s.issue c).grantCount = s.grantCount := rfl
@[simp] theorem State.issue_owner (c : PortCommand) : (s.issue c).owner = s.owner := rfl
@[simp] theorem State.issue_accessLeft (c : PortCommand) : (s.issue c).accessLeft = s.accessLeft := rfl
@[simp] theorem State.issue_cycles (c : PortCommand) : (s.issue c).cycles = s.cycles := rfl
@[simp] theorem State.issue_stretch (c : PortCommand) : (s.issue c).stretch = s.stretch := rfl
@[simp] theorem State.issue_ends (c : PortCommand) : (s.issue c).ends = s.ends := rfl
@[simp] theorem State.issue_mem (c : PortCommand) : (s.issue c).mem = s.mem := rfl
@[simp] theorem State.issue_slots (c : PortCommand) : (s.issue c).slots = s.slots := rfl
@[simp] theorem State.issue_orderQueue (c : PortCommand) : (s.issue c).orderQueue = s.orderQueue := rfl
@[simp] theorem State.issue_threshold (c : PortCommand) : (s.issue c).threshold = s.threshold := rfl
@[simp] theorem State.issue_dispatcher (c : PortCommand) : (s.issue c).dispatcher = s.dispatcher := rfl
@[simp] theorem State.issue_results (c : PortCommand) : (s.issue c).results = s.results := rfl
@[simp] theorem State.issue_links (c : PortCommand) : (s.issue c).links = s.links := rfl
@[simp] theorem State.issue_circuitInService (c : PortCommand) : (s.issue c).circuitInService = s.circuitInService := rfl
@[simp] theorem State.issue_faults (c : PortCommand) : (s.issue c).faults = s.faults := rfl
@[simp] theorem State.issue_cordPtr (c : PortCommand) : (s.issue c).cordPtr = s.cordPtr := rfl
@[simp] theorem State.issue_groupPtrs (c : PortCommand) : (s.issue c).groupPtrs = s.groupPtrs := rfl
@[simp] theorem State.issue_operateSlots (c : PortCommand) : (s.issue c).operateSlots = s.operateSlots := rfl
@[simp] theorem State.issue_waitList (c : PortCommand) : (s.issue c).waitList = s.waitList := rfl
@[simp] theorem State.issue_onWire (c : PortCommand) : (s.issue c).onWire = s.onWire := rfl
@[simp] theorem State.issue_wireLeft (c : PortCommand) : (s.issue c).wireLeft = s.wireLeft := rfl
@[simp] theorem State.issue_bitClock (c : PortCommand) : (s.issue c).bitClock = s.bitClock := rfl
@[simp] theorem State.issue_outstanding (c : PortCommand) : (s.issue c).outstanding = s.outstanding := rfl
@[simp] theorem State.issue_points (c : PortCommand) : (s.issue c).points = s.points := rfl
@[simp] theorem State.issue_scanPins (c : PortCommand) : (s.issue c).scanPins = s.scanPins := rfl
@[simp] theorem State.issue_scanDivider (c : PortCommand) : (s.issue c).scanDivider = s.scanDivider := rfl
@[simp] theorem State.issue_records (c : PortCommand) : (s.issue c).records = s.records := rfl
@[simp] theorem State.issue_lines (c : PortCommand) : (s.issue c).lines = s.lines := rfl
@[simp] theorem State.issue_tickDivider (c : PortCommand) : (s.issue c).tickDivider = s.tickDivider := rfl
@[simp] theorem State.issue_weekMinute (c : PortCommand) : (s.issue c).weekMinute = s.weekMinute := rfl
@[simp] theorem State.issue_second (c : PortCommand) : (s.issue c).second = s.second := rfl
@[simp] theorem State.issue_tenths (c : PortCommand) : (s.issue c).tenths = s.tenths := rfl
@[simp] theorem State.issue_timeUnset (c : PortCommand) : (s.issue c).timeUnset = s.timeUnset := rfl
@[simp] theorem State.issue_calendar (c : PortCommand) : (s.issue c).calendar = s.calendar := rfl
@[simp] theorem State.issue_band (c : PortCommand) : (s.issue c).band = s.band := rfl
@[simp] theorem State.issue_tariff (c : PortCommand) : (s.issue c).tariff = s.tariff := rfl
@[simp] theorem State.issue_postPointer (c : PortCommand) : (s.issue c).postPointer = s.postPointer := rfl
@[simp] theorem State.issue_retryLine (c : PortCommand) : (s.issue c).retryLine = s.retryLine := rfl
@[simp] theorem State.issue_setMeterJob (c : PortCommand) : (s.issue c).setMeterJob = s.setMeterJob := rfl
@[simp] theorem State.issue_meterRequest (c : PortCommand) : (s.issue c).meterRequest = s.meterRequest := rfl
@[simp] theorem State.issue_holdQueue (c : PortCommand) : (s.issue c).holdQueue = s.holdQueue := rfl
@[simp] theorem State.issue_closingWaiters (c : PortCommand) : (s.issue c).closingWaiters = s.closingWaiters := rfl
@[simp] theorem State.issue_seqCounter (c : PortCommand) : (s.issue c).seqCounter = s.seqCounter := rfl
@[simp] theorem State.issue_writeIndex (c : PortCommand) : (s.issue c).writeIndex = s.writeIndex := rfl
@[simp] theorem State.issue_readIndex (c : PortCommand) : (s.issue c).readIndex = s.readIndex := rfl
@[simp] theorem State.issue_ringFull (c : PortCommand) : (s.issue c).ringFull = s.ringFull := rfl
@[simp] theorem State.issue_burst (c : PortCommand) : (s.issue c).burst = s.burst := rfl
@[simp] theorem State.issue_reports (c : PortCommand) : (s.issue c).reports = s.reports := rfl
@[simp] theorem State.issue_latch (c : PortCommand) : (s.issue c).latch = s.latch := rfl
@[simp] theorem State.issue_reportsLost (c : PortCommand) : (s.issue c).reportsLost = s.reportsLost := rfl
@[simp] theorem State.issue_memoryError (c : PortCommand) : (s.issue c).memoryError = s.memoryError := rfl
@[simp] theorem State.issue_guardedWrite (c : PortCommand) : (s.issue c).guardedWrite = s.guardedWrite := rfl
@[simp] theorem State.issue_pending (c : PortCommand) : (s.issue c).pending = s.pending := rfl

/-! ## withdraw -/

@[simp] theorem State.withdraw_phase (c : PortCommand) : (s.withdraw c).phase = s.phase := rfl
@[simp] theorem State.withdraw_map (c : PortCommand) : (s.withdraw c).map = s.map := rfl
@[simp] theorem State.withdraw_configFault (c : PortCommand) : (s.withdraw c).configFault = s.configFault := rfl
@[simp] theorem State.withdraw_readPair (c : PortCommand) : (s.withdraw c).readPair = s.readPair := rfl
@[simp] theorem State.withdraw_grantCount (c : PortCommand) : (s.withdraw c).grantCount = s.grantCount := rfl
@[simp] theorem State.withdraw_owner (c : PortCommand) : (s.withdraw c).owner = s.owner := rfl
@[simp] theorem State.withdraw_accessLeft (c : PortCommand) : (s.withdraw c).accessLeft = s.accessLeft := rfl
@[simp] theorem State.withdraw_cycles (c : PortCommand) : (s.withdraw c).cycles = s.cycles := rfl
@[simp] theorem State.withdraw_stretch (c : PortCommand) : (s.withdraw c).stretch = s.stretch := rfl
@[simp] theorem State.withdraw_ends (c : PortCommand) : (s.withdraw c).ends = s.ends := rfl
@[simp] theorem State.withdraw_mem (c : PortCommand) : (s.withdraw c).mem = s.mem := rfl
@[simp] theorem State.withdraw_slots (c : PortCommand) : (s.withdraw c).slots = s.slots := rfl
@[simp] theorem State.withdraw_orderQueue (c : PortCommand) : (s.withdraw c).orderQueue = s.orderQueue := rfl
@[simp] theorem State.withdraw_threshold (c : PortCommand) : (s.withdraw c).threshold = s.threshold := rfl
@[simp] theorem State.withdraw_dispatcher (c : PortCommand) : (s.withdraw c).dispatcher = s.dispatcher := rfl
@[simp] theorem State.withdraw_results (c : PortCommand) : (s.withdraw c).results = s.results := rfl
@[simp] theorem State.withdraw_links (c : PortCommand) : (s.withdraw c).links = s.links := rfl
@[simp] theorem State.withdraw_circuitInService (c : PortCommand) : (s.withdraw c).circuitInService = s.circuitInService := rfl
@[simp] theorem State.withdraw_faults (c : PortCommand) : (s.withdraw c).faults = s.faults := rfl
@[simp] theorem State.withdraw_cordPtr (c : PortCommand) : (s.withdraw c).cordPtr = s.cordPtr := rfl
@[simp] theorem State.withdraw_groupPtrs (c : PortCommand) : (s.withdraw c).groupPtrs = s.groupPtrs := rfl
@[simp] theorem State.withdraw_operateSlots (c : PortCommand) : (s.withdraw c).operateSlots = s.operateSlots := rfl
@[simp] theorem State.withdraw_waitList (c : PortCommand) : (s.withdraw c).waitList = s.waitList := rfl
@[simp] theorem State.withdraw_onWire (c : PortCommand) : (s.withdraw c).onWire = s.onWire := rfl
@[simp] theorem State.withdraw_wireLeft (c : PortCommand) : (s.withdraw c).wireLeft = s.wireLeft := rfl
@[simp] theorem State.withdraw_bitClock (c : PortCommand) : (s.withdraw c).bitClock = s.bitClock := rfl
@[simp] theorem State.withdraw_outstanding (c : PortCommand) : (s.withdraw c).outstanding = s.outstanding := rfl
@[simp] theorem State.withdraw_points (c : PortCommand) : (s.withdraw c).points = s.points := rfl
@[simp] theorem State.withdraw_scanPins (c : PortCommand) : (s.withdraw c).scanPins = s.scanPins := rfl
@[simp] theorem State.withdraw_scanDivider (c : PortCommand) : (s.withdraw c).scanDivider = s.scanDivider := rfl
@[simp] theorem State.withdraw_records (c : PortCommand) : (s.withdraw c).records = s.records := rfl
@[simp] theorem State.withdraw_lines (c : PortCommand) : (s.withdraw c).lines = s.lines := rfl
@[simp] theorem State.withdraw_tickDivider (c : PortCommand) : (s.withdraw c).tickDivider = s.tickDivider := rfl
@[simp] theorem State.withdraw_weekMinute (c : PortCommand) : (s.withdraw c).weekMinute = s.weekMinute := rfl
@[simp] theorem State.withdraw_second (c : PortCommand) : (s.withdraw c).second = s.second := rfl
@[simp] theorem State.withdraw_tenths (c : PortCommand) : (s.withdraw c).tenths = s.tenths := rfl
@[simp] theorem State.withdraw_timeUnset (c : PortCommand) : (s.withdraw c).timeUnset = s.timeUnset := rfl
@[simp] theorem State.withdraw_calendar (c : PortCommand) : (s.withdraw c).calendar = s.calendar := rfl
@[simp] theorem State.withdraw_band (c : PortCommand) : (s.withdraw c).band = s.band := rfl
@[simp] theorem State.withdraw_tariff (c : PortCommand) : (s.withdraw c).tariff = s.tariff := rfl
@[simp] theorem State.withdraw_postPointer (c : PortCommand) : (s.withdraw c).postPointer = s.postPointer := rfl
@[simp] theorem State.withdraw_retryLine (c : PortCommand) : (s.withdraw c).retryLine = s.retryLine := rfl
@[simp] theorem State.withdraw_setMeterJob (c : PortCommand) : (s.withdraw c).setMeterJob = s.setMeterJob := rfl
@[simp] theorem State.withdraw_meterRequest (c : PortCommand) : (s.withdraw c).meterRequest = s.meterRequest := rfl
@[simp] theorem State.withdraw_holdQueue (c : PortCommand) : (s.withdraw c).holdQueue = s.holdQueue := rfl
@[simp] theorem State.withdraw_closingWaiters (c : PortCommand) : (s.withdraw c).closingWaiters = s.closingWaiters := rfl
@[simp] theorem State.withdraw_seqCounter (c : PortCommand) : (s.withdraw c).seqCounter = s.seqCounter := rfl
@[simp] theorem State.withdraw_writeIndex (c : PortCommand) : (s.withdraw c).writeIndex = s.writeIndex := rfl
@[simp] theorem State.withdraw_readIndex (c : PortCommand) : (s.withdraw c).readIndex = s.readIndex := rfl
@[simp] theorem State.withdraw_ringFull (c : PortCommand) : (s.withdraw c).ringFull = s.ringFull := rfl
@[simp] theorem State.withdraw_burst (c : PortCommand) : (s.withdraw c).burst = s.burst := rfl
@[simp] theorem State.withdraw_reports (c : PortCommand) : (s.withdraw c).reports = s.reports := rfl
@[simp] theorem State.withdraw_latch (c : PortCommand) : (s.withdraw c).latch = s.latch := rfl
@[simp] theorem State.withdraw_reportsLost (c : PortCommand) : (s.withdraw c).reportsLost = s.reportsLost := rfl
@[simp] theorem State.withdraw_memoryError (c : PortCommand) : (s.withdraw c).memoryError = s.memoryError := rfl
@[simp] theorem State.withdraw_guardedWrite (c : PortCommand) : (s.withdraw c).guardedWrite = s.guardedWrite := rfl
@[simp] theorem State.withdraw_pending (c : PortCommand) : (s.withdraw c).pending = s.pending := rfl

/-! ## report -/

@[simp] theorem State.report_phase (r : Report) : (s.report r).phase = s.phase := by unfold State.report; split <;> rfl
@[simp] theorem State.report_map (r : Report) : (s.report r).map = s.map := by unfold State.report; split <;> rfl
@[simp] theorem State.report_configFault (r : Report) : (s.report r).configFault = s.configFault := by unfold State.report; split <;> rfl
@[simp] theorem State.report_readPair (r : Report) : (s.report r).readPair = s.readPair := by unfold State.report; split <;> rfl
@[simp] theorem State.report_grantCount (r : Report) : (s.report r).grantCount = s.grantCount := by unfold State.report; split <;> rfl
@[simp] theorem State.report_owner (r : Report) : (s.report r).owner = s.owner := by unfold State.report; split <;> rfl
@[simp] theorem State.report_accessLeft (r : Report) : (s.report r).accessLeft = s.accessLeft := by unfold State.report; split <;> rfl
@[simp] theorem State.report_cycles (r : Report) : (s.report r).cycles = s.cycles := by unfold State.report; split <;> rfl
@[simp] theorem State.report_stretch (r : Report) : (s.report r).stretch = s.stretch := by unfold State.report; split <;> rfl
@[simp] theorem State.report_ends (r : Report) : (s.report r).ends = s.ends := by unfold State.report; split <;> rfl
@[simp] theorem State.report_mem (r : Report) : (s.report r).mem = s.mem := by unfold State.report; split <;> rfl
@[simp] theorem State.report_slots (r : Report) : (s.report r).slots = s.slots := by unfold State.report; split <;> rfl
@[simp] theorem State.report_orderQueue (r : Report) : (s.report r).orderQueue = s.orderQueue := by unfold State.report; split <;> rfl
@[simp] theorem State.report_threshold (r : Report) : (s.report r).threshold = s.threshold := by unfold State.report; split <;> rfl
@[simp] theorem State.report_dispatcher (r : Report) : (s.report r).dispatcher = s.dispatcher := by unfold State.report; split <;> rfl
@[simp] theorem State.report_results (r : Report) : (s.report r).results = s.results := by unfold State.report; split <;> rfl
@[simp] theorem State.report_links (r : Report) : (s.report r).links = s.links := by unfold State.report; split <;> rfl
@[simp] theorem State.report_circuitInService (r : Report) : (s.report r).circuitInService = s.circuitInService := by unfold State.report; split <;> rfl
@[simp] theorem State.report_faults (r : Report) : (s.report r).faults = s.faults := by unfold State.report; split <;> rfl
@[simp] theorem State.report_cordPtr (r : Report) : (s.report r).cordPtr = s.cordPtr := by unfold State.report; split <;> rfl
@[simp] theorem State.report_groupPtrs (r : Report) : (s.report r).groupPtrs = s.groupPtrs := by unfold State.report; split <;> rfl
@[simp] theorem State.report_operateSlots (r : Report) : (s.report r).operateSlots = s.operateSlots := by unfold State.report; split <;> rfl
@[simp] theorem State.report_waitList (r : Report) : (s.report r).waitList = s.waitList := by unfold State.report; split <;> rfl
@[simp] theorem State.report_txQueue (r : Report) : (s.report r).txQueue = s.txQueue := by unfold State.report; split <;> rfl
@[simp] theorem State.report_onWire (r : Report) : (s.report r).onWire = s.onWire := by unfold State.report; split <;> rfl
@[simp] theorem State.report_wireLeft (r : Report) : (s.report r).wireLeft = s.wireLeft := by unfold State.report; split <;> rfl
@[simp] theorem State.report_bitClock (r : Report) : (s.report r).bitClock = s.bitClock := by unfold State.report; split <;> rfl
@[simp] theorem State.report_outstanding (r : Report) : (s.report r).outstanding = s.outstanding := by unfold State.report; split <;> rfl
@[simp] theorem State.report_points (r : Report) : (s.report r).points = s.points := by unfold State.report; split <;> rfl
@[simp] theorem State.report_scanPins (r : Report) : (s.report r).scanPins = s.scanPins := by unfold State.report; split <;> rfl
@[simp] theorem State.report_scanDivider (r : Report) : (s.report r).scanDivider = s.scanDivider := by unfold State.report; split <;> rfl
@[simp] theorem State.report_records (r : Report) : (s.report r).records = s.records := by unfold State.report; split <;> rfl
@[simp] theorem State.report_lines (r : Report) : (s.report r).lines = s.lines := by unfold State.report; split <;> rfl
@[simp] theorem State.report_tickDivider (r : Report) : (s.report r).tickDivider = s.tickDivider := by unfold State.report; split <;> rfl
@[simp] theorem State.report_weekMinute (r : Report) : (s.report r).weekMinute = s.weekMinute := by unfold State.report; split <;> rfl
@[simp] theorem State.report_second (r : Report) : (s.report r).second = s.second := by unfold State.report; split <;> rfl
@[simp] theorem State.report_tenths (r : Report) : (s.report r).tenths = s.tenths := by unfold State.report; split <;> rfl
@[simp] theorem State.report_timeUnset (r : Report) : (s.report r).timeUnset = s.timeUnset := by unfold State.report; split <;> rfl
@[simp] theorem State.report_calendar (r : Report) : (s.report r).calendar = s.calendar := by unfold State.report; split <;> rfl
@[simp] theorem State.report_band (r : Report) : (s.report r).band = s.band := by unfold State.report; split <;> rfl
@[simp] theorem State.report_tariff (r : Report) : (s.report r).tariff = s.tariff := by unfold State.report; split <;> rfl
@[simp] theorem State.report_postPointer (r : Report) : (s.report r).postPointer = s.postPointer := by unfold State.report; split <;> rfl
@[simp] theorem State.report_retryLine (r : Report) : (s.report r).retryLine = s.retryLine := by unfold State.report; split <;> rfl
@[simp] theorem State.report_setMeterJob (r : Report) : (s.report r).setMeterJob = s.setMeterJob := by unfold State.report; split <;> rfl
@[simp] theorem State.report_meterRequest (r : Report) : (s.report r).meterRequest = s.meterRequest := by unfold State.report; split <;> rfl
@[simp] theorem State.report_holdQueue (r : Report) : (s.report r).holdQueue = s.holdQueue := by unfold State.report; split <;> rfl
@[simp] theorem State.report_closingWaiters (r : Report) : (s.report r).closingWaiters = s.closingWaiters := by unfold State.report; split <;> rfl
@[simp] theorem State.report_seqCounter (r : Report) : (s.report r).seqCounter = s.seqCounter := by unfold State.report; split <;> rfl
@[simp] theorem State.report_writeIndex (r : Report) : (s.report r).writeIndex = s.writeIndex := by unfold State.report; split <;> rfl
@[simp] theorem State.report_readIndex (r : Report) : (s.report r).readIndex = s.readIndex := by unfold State.report; split <;> rfl
@[simp] theorem State.report_ringFull (r : Report) : (s.report r).ringFull = s.ringFull := by unfold State.report; split <;> rfl
@[simp] theorem State.report_burst (r : Report) : (s.report r).burst = s.burst := by unfold State.report; split <;> rfl
@[simp] theorem State.report_latch (r : Report) : (s.report r).latch = s.latch := by unfold State.report; split <;> rfl
@[simp] theorem State.report_memoryError (r : Report) : (s.report r).memoryError = s.memoryError := by unfold State.report; split <;> rfl
@[simp] theorem State.report_guardedWrite (r : Report) : (s.report r).guardedWrite = s.guardedWrite := by unfold State.report; split <;> rfl
@[simp] theorem State.report_pending (r : Report) : (s.report r).pending = s.pending := by unfold State.report; split <;> rfl

end Fields

/-! ## Getters after setters -/

@[simp] theorem State.record_setRecord_same (s : State) (x : Circuit) (r : CallRecord) : (s.setRecord x r).record x = r := by
  simp [State.record, State.setRecord]

theorem State.record_setRecord_ne (s : State) (x y : Circuit) (r : CallRecord) (h : y ≠ x) :
    (s.setRecord x r).record y = s.record y := by
  have h' : x.val ≠ y.val := fun e => h (Fin.ext e.symm)
  simp [State.record, State.setRecord, Vector.getElem_set_ne, h']

@[simp] theorem State.modifyRecord_eq (s : State) (x : Circuit) (f : CallRecord → CallRecord) :
    s.modifyRecord x f = s.setRecord x (f (s.record x)) := rfl

@[simp] theorem State.line_setLine_same (s : State) (l : Line) (e : LineEntry) : (s.setLine l e).line l = e := by
  simp [State.line, State.setLine]

theorem State.line_setLine_ne (s : State) (l m : Line) (e : LineEntry) (h : m ≠ l) : (s.setLine l e).line m = s.line m := by
  have h' : l.val ≠ m.val := fun e => h (Fin.ext e.symm)
  simp [State.line, State.setLine, Vector.getElem_set_ne, h']

@[simp] theorem State.modifyLine_eq (s : State) (l : Line) (f : LineEntry → LineEntry) :
    s.modifyLine l f = s.setLine l (f (s.line l)) := rfl

@[simp] theorem State.setBusy_none (s : State) (b : Option Circuit) : s.setBusy none b = s := rfl

@[simp] theorem State.setBusy_some (s : State) (l : Line) (b : Option Circuit) :
    s.setBusy (some l) b = s.setLine l { s.line l with busy := b } := rfl

theorem linkIndex_inj {a b : LineGroup × LinkNo} (h : linkIndex a = linkIndex b) : a = b := by
  obtain ⟨⟨g, hg⟩, ⟨k, hk⟩⟩ := a
  obtain ⟨⟨g', hg'⟩, ⟨k', hk'⟩⟩ := b
  simp only [linkIndex, Fin.mk.injEq, Prod.mk.injEq] at h ⊢
  omega

@[simp] theorem State.link_modifyLink_same (s : State) (gk : LineGroup × LinkNo) (f : Link → Link) :
    (s.modifyLink gk f).link gk = f (s.link gk) := by
  simp [State.link, State.modifyLink]

theorem State.link_modifyLink_ne (s : State) (gk gk' : LineGroup × LinkNo) (f : Link → Link) (h : gk' ≠ gk) :
    (s.modifyLink gk f).link gk' = s.link gk' := by
  have h' : (linkIndex gk).val ≠ (linkIndex gk').val := fun e => h (linkIndex_inj (Fin.ext e.symm))
  simp [State.link, State.modifyLink, Vector.getElem_set_ne, h']

@[simp] theorem State.slot_modifySlot_same (s : State) (i : OrderSlot) (f : SlotEntry → SlotEntry) :
    (s.modifySlot i f).slot i = f (s.slot i) := by
  simp [State.slot, State.modifySlot]

theorem State.slot_modifySlot_ne (s : State) (i j : OrderSlot) (f : SlotEntry → SlotEntry) (h : j ≠ i) :
    (s.modifySlot i f).slot j = s.slot j := by
  have h' : i.val ≠ j.val := fun e => h (Fin.ext e.symm)
  simp [State.slot, State.modifySlot, Vector.getElem_set_ne, h']

@[simp] theorem State.setSlotState_eq (s : State) (i : OrderSlot) (st : SlotState) :
    s.setSlotState i st = s.modifySlot i fun e => { e with state := st } := rfl

@[simp] theorem State.point_setPoint_same (s : State) (p : Point) (st : PointState) : (s.setPoint p st).points[p] = st := by
  simp [State.setPoint]

theorem State.point_setPoint_ne (s : State) (p q : Point) (st : PointState) (h : q ≠ p) :
    (s.setPoint p st).points[q] = s.points[q] := by
  have h' : p.val ≠ q.val := fun e => h (Fin.ext e.symm)
  simp [State.setPoint, Vector.getElem_set_ne, h']

/-! ## Results and reports -/

@[simp] theorem State.handResult_results (s : State) (i : OrderSlot) (c : ResultCode) (x : Option Circuit) :
    (s.handResult i c x).results = s.results ++ [{ slot := i, code := c, circuit := x }] := rfl

/-- A report enters a queue with a place at its tail (R168). -/
theorem State.report_room (s : State) (r : Report) (h : s.reports.length < 32) :
    s.report r = { s with reports := s.reports ++ [r] } := by
  simp [State.report, Config.reportQueueCapacity, h]

/-- A report handed at a full queue is dropped, and the reports-lost sticky is set (R168). -/
theorem State.report_full (s : State) (r : Report) (h : 32 ≤ s.reports.length) :
    s.report r = { s with reportsLost := true } := by
  simp [State.report, Config.reportQueueCapacity, Nat.not_lt.mpr h]

/-- The report queue never exceeds its capacity. -/
theorem State.report_bound (s : State) (r : Report) (h : s.reports.length ≤ 32) : (s.report r).reports.length ≤ 32 := by
  by_cases hr : s.reports.length < 32
  · rw [State.report_room s r hr]
    simpa using hr
  · rw [State.report_full s r (by omega)]
    exact h

end Sys2Proof.Machine
end

