-- ==== Sys2Proof/Laws/Arbiter.lean ====
section
/-!
SUPPORT. What the arbiter can do: said once for its requests, its grants and the choice at the end of an event, and for the
presentation of a processor cycle at a free port.
-/

namespace Sys2Proof.Machine

/-! ## ArbiterOnly -/

theorem State.ArbiterOnly.refl (s : State) : State.ArbiterOnly s s := rfl

theorem State.ArbiterOnly.trans {s t u : State} (h : State.ArbiterOnly s t) (h' : State.ArbiterOnly t u) :
    State.ArbiterOnly s u := by
  unfold State.ArbiterOnly at *
  rw [h'] at *
  rw [h]

/-- A change of the arbiter's fields alone. -/
theorem State.ArbiterOnly.intro (s : State) (o : Owner) (a : Nat) (b : BurstState) (m : Bool) (g : Nat) (p : Line)
    (r : Option Line) :
    State.ArbiterOnly s { s with owner := o, accessLeft := a, burst := b, meterRequest := m, grantCount := g,
                                 postPointer := p, retryLine := r } := rfl

theorem State.ArbiterOnly.cycles {s t : State} (h : State.ArbiterOnly s t) : t.cycles = s.cycles := by rw [h]

theorem State.ArbiterOnly.results {s t : State} (h : State.ArbiterOnly s t) : t.results = s.results := by rw [h]

/-! ## Eligible lines -/

/-- What makes a line eligible for posting (R98). -/
theorem State.eligible_iff (s : State) (l : Line) :
    s.eligible l = true ↔
      (s.line l).pulses ≠ 0 ∧ ((s.line l).fault = .none ∨ (s.line l).fault = .saturated) ∧ s.readPair ≠ some l := by
  simp [State.eligible, LineEntry.postable, and_assoc]

/-- There is an eligible line exactly when the Meter Engine finds one (R98). -/
theorem State.anyEligible_iff (s : State) : s.anyEligible = true ↔ ∃ l, s.eligible l = true := by
  simp only [State.anyEligible, List.any_eq_true, Prod.exists]
  constructor
  · rintro ⟨e, l, hmem, h⟩
    obtain ⟨n, hn, hget⟩ := List.getElem_of_mem hmem
    have hn' : n < 512 := by simpa using hn
    obtain ⟨he, hl⟩ := Prod.mk.inj (by simpa [List.getElem_zip] using hget)
    subst he hl
    exact ⟨⟨n, hn'⟩, by simpa [State.eligible, State.line] using h⟩
  · rintro ⟨l, h⟩
    refine ⟨s.lines[l], l, ?_, by simpa [State.eligible, State.line] using h⟩
    have : (s.lines.toList.zip (List.finRange 512))[l.val]'(by simp) = (s.lines[l], l) := by simp [List.getElem_zip]
    exact this ▸ List.getElem_mem _

/-! ## Requests and grants -/

/-- Raising requests touches the requests alone (R98, R134). -/
theorem State.raiseRequests_eq (s : State) :
    s.raiseRequests = { s with burst := s.raiseRequests.burst, meterRequest := s.raiseRequests.meterRequest } := by
  unfold State.raiseRequests State.raiseMeter State.raiseBurst
  (repeat' split) <;> rfl

theorem State.raiseRequests_arbiterOnly (s : State) : State.ArbiterOnly s s.raiseRequests := by
  rw [State.raiseRequests_eq]
  rfl

theorem State.startPosting_arbiterOnly (s : State) (l : Line) (att : Attempt) :
    State.ArbiterOnly s (s.startPosting l att) := rfl

theorem State.choosePosting_arbiterOnly (s : State) : State.ArbiterOnly s s.choosePosting := by
  unfold State.choosePosting
  (repeat' split) <;> rfl

theorem State.grantMeter_arbiterOnly (s : State) : State.ArbiterOnly s s.grantMeter := by
  unfold State.grantMeter
  simp only
  split
  · rfl
  · exact State.ArbiterOnly.trans (t := { s with meterRequest := false }) rfl (State.choosePosting_arbiterOnly _)

/-- A grant of the 716 (R163, R164). -/
theorem State.grantPart_arbiterOnly (s : State) : State.ArbiterOnly s s.grantPart := by
  unfold State.grantPart
  simp only
  split
  · rfl
  · split
    · rfl
    · exact State.ArbiterOnly.trans (t := { s with grantCount := 0 }) rfl (State.grantMeter_arbiterOnly _)

/-! ## The choice at the end of an event -/

/-- One choice of the arbiter (R163). -/
theorem arbitrate_succ (whole : Bool) (n : Nat) (s : State) : arbitrate whole (n + 1) s
    = if s.raiseRequests.owner ≠ .none then s.raiseRequests
      else if s.raiseRequests.processorWins then arbitrate whole n (s.raiseRequests.grantProcessor whole)
      else if s.raiseRequests.partWaits then arbitrate whole n s.raiseRequests.grantPart
      else s.raiseRequests := rfl

/-- With no processor cycle the arbiter changes its own fields alone. -/
theorem arbitrate_arbiterOnly (whole : Bool) :
    ∀ (n : Nat) (s : State), s.cycles = [] → State.ArbiterOnly s (arbitrate whole n s)
  | 0, s, _ => State.ArbiterOnly.refl s
  | n + 1, s, h => by
    have hr := State.raiseRequests_arbiterOnly s
    have hc : s.raiseRequests.cycles = [] := by rw [hr.cycles, h]
    have hp : s.raiseRequests.processorWins = false := by simp [State.processorWins, State.processorWaits, hc]
    simp only [arbitrate_succ, hp]
    split
    · exact hr
    · simp only [Bool.false_eq_true, if_false]
      split
      · have hg := State.grantPart_arbiterOnly s.raiseRequests
        exact (hr.trans hg).trans (arbitrate_arbiterOnly whole n _ (by rw [hg.cycles, hc]))
      · exact hr

theorem State.askPort_arbiterOnly (s : State) (h : s.cycles = []) : State.ArbiterOnly s s.askPort :=
  arbitrate_arbiterOnly false _ s h

/-- While the port has an owner the arbiter grants nothing (R163). -/
theorem State.askPort_owned (s : State) (h : s.owner ≠ .none) : s.askPort = s.raiseRequests := by
  have hr : s.raiseRequests.owner = s.owner := by rw [State.raiseRequests_eq]
  simp [State.askPort, arbitrate_succ, hr, h]

/-! ## A passed cycle that owns the port -/

/-- A cycle that is passed to memory, and that memory does not complete in the event of its grant, takes the port for one access, its
read pair opened (R106, R162). -/
theorem State.grantProcessor_passed (s : State) (c : Cycle) (rest : List Cycle) (hc : s.cycles = c :: rest)
    (hp : s.isPassed c = true) :
    s.grantProcessor false
      = { s with grantCount := if s.partWaits then s.grantCount + 1 else 0, owner := .passed,
                 accessLeft := Config.accessPeriods, stretch := .none, readPair := s.pairGranted c } := by
  unfold State.grantProcessor
  split
  next c' rest' h =>
    obtain ⟨rfl, rfl⟩ : c' = c ∧ rest' = rest := by simpa [hc] using h.symm
    exact if_pos (show (s.isPassed c' && !false) = true by simp [hp])
  next h => simp [hc] at h

/-- The end of the passed access that owns the port: its cycle is performed and the port given up (R162). -/
theorem State.finishOwner_passed (s : State) (c : Cycle) (rest : List Cycle) (ho : s.owner = .passed)
    (hc : s.cycles = c :: rest) : s.finishOwner = (s.performCycle c).freePort := by
  simp [State.finishOwner, State.passedAccessDone, ho, hc]

/-! ## A processor cycle at a free port -/

/-- While MRST is active a cycle ends with PBERR at once (R162). -/
theorem State.presentCycle_held (s : State) (c : Cycle) (later : Bool) (h : s.phase = .held) :
    s.presentCycle c later = { s with ends := [.pberr] } := by
  simp [State.presentCycle, State.isHeld, h]

/-- A cycle presented at a free port is granted in that event, on the state with its own cycle at the head, and the arbiter chooses
again (R162 to R164). -/
theorem State.presentCycle_granted (s : State) (c : Cycle) (later : Bool) (h : s.PortFree) (hp : s.phase ≠ .held) :
    ∃ b m, s.presentCycle c later = arbitrate (!later) 6
      (({ s with ends := [], cycles := [c], burst := b, meterRequest := m } : State).grantProcessor (!later)) := by
  obtain ⟨hc, ho, hst, hg⟩ := h
  have hh : s.isHeld = false := by simp [State.isHeld, hp]
  let s1 : State := { s with ends := [], cycles := [c] }
  have h1 : s.presentCycle c later = arbitrate (!later) 7 s1 := by
    simp [State.presentCycle, State.endPassedAccess, hh, hc, ho, s1]
  have hr := State.raiseRequests_eq s1
  have hw : s1.raiseRequests.processorWins = true := by
    rw [hr]
    simp [State.processorWins, State.processorWaits, s1, hst, Config.grantLimit, hg]
  have ho' : s1.raiseRequests.owner = .none := by rw [hr]; exact ho
  refine ⟨s1.raiseRequests.burst, s1.raiseRequests.meterRequest, ?_⟩
  rw [h1, arbitrate_succ, if_neg (by simp [ho']), if_pos hw, hr]

/-- A cycle presented at a free port and not left to a later event is performed in its own, and the arbiter chooses again (R162 to
R164). -/
theorem State.presentCycle_free (s : State) (c : Cycle) (h : s.PortFree) (hp : s.phase ≠ .held) :
    ∃ b m g, s.presentCycle c false
      = arbitrate true 6 (({ s with ends := [], cycles := [c], burst := b, meterRequest := m, grantCount := g }).performCycle c) := by
  obtain ⟨b, m, e⟩ := s.presentCycle_granted c false h hp
  refine ⟨b, m, if ({ s with burst := b, meterRequest := m } : State).partWaits then s.grantCount + 1 else 0, ?_⟩
  rw [e]
  simp [State.grantProcessor, State.partWaits]

/-- A passed cycle presented at a free port that memory completes later owns the port when its event ends, its read pair opened (R106,
R162, R164). -/
theorem State.presentCycle_later (s : State) (c : Cycle) (h : s.PortFree) (hp : s.isPassed c = true) :
    State.ArbiterOnly { s with ends := [], cycles := [c], readPair := s.pairGranted c } (s.presentCycle c true) ∧
      (s.presentCycle c true).owner = .passed ∧ (s.presentCycle c true).accessLeft = Config.accessPeriods := by
  obtain ⟨b, m, e⟩ := s.presentCycle_granted c true h (by intro hh; simp [State.isPassed, hh] at hp)
  have hg := State.grantProcessor_passed { s with ends := [], cycles := [c], burst := b, meterRequest := m } c [] rfl hp
  rw [e, Bool.not_true, hg, arbitrate_succ, if_pos (by rw [State.raiseRequests_eq]; exact Owner.noConfusion), State.raiseRequests_eq]
  exact ⟨by rw [← h.2.2.1]; rfl, rfl, rfl⟩

/-- A cycle presented at a free port that ends in its grant leaves what its treatment leaves, but for the arbiter's fields. -/
theorem State.presentCycle_ends (s u : State) (c : Cycle) (h : s.PortFree) (hp : s.phase ≠ .held)
    (hu : ∀ b m g, ({ s with ends := [], cycles := [c], burst := b, meterRequest := m, grantCount := g } : State).performCycle c
      = { u with burst := b, meterRequest := m, grantCount := g }) (hc : u.cycles = []) :
    State.ArbiterOnly u (s.presentCycle c false) := by
  obtain ⟨b, m, g, e⟩ := State.presentCycle_free s c h hp
  rw [e, hu b m g]
  exact State.ArbiterOnly.trans (t := { u with burst := b, meterRequest := m, grantCount := g }) rfl
    (arbitrate_arbiterOnly true 6 _ hc)

end Sys2Proof.Machine
end

