-- ==== Sys2Proof/Laws/Memory.lean ====
section
/-!
SUPPORT. Laws of the call store: a read after a write, and the canonical form, which every memory operation keeps.
-/

namespace Sys2Proof.Machine

/-! ## Reads after writes -/

theorem Memory.readWord_consWord_same (a : Nat) (w : Word) (m : Memory)
    (h : Memory.readWord m a = blankWord) : Memory.readWord (Memory.consWord a w m) a = w := by
  unfold Memory.consWord
  split
  · simp [*]
  · simp [Memory.readWord]

theorem Memory.readWord_consWord_ne (a b : Nat) (w : Word) (m : Memory) (hab : a ≠ b) :
    Memory.readWord (Memory.consWord a w m) b = Memory.readWord m b := by
  unfold Memory.consWord
  split
  · rfl
  · simp [Memory.readWord, hab]

/-- Below the addresses of a canonical list every word reads blank. -/
theorem Memory.readWord_below : ∀ (m : Memory) (n a : Nat), Memory.wfFrom n m = true → a < n →
    Memory.readWord m a = blankWord
  | [], _, _, _, _ => rfl
  | (b, v) :: rest, n, a, h, ha => by
    simp only [Memory.wfFrom, Bool.and_eq_true, decide_eq_true_eq] at h
    obtain ⟨⟨hb, _⟩, hr⟩ := h
    have hba : ¬ b = a := by omega
    simp only [Memory.readWord, if_neg hba]
    exact Memory.readWord_below rest (b + 1) a hr (by omega)

/-- A write leaves every other address as it reads. -/
theorem Memory.readWord_writeWord_ne : ∀ (m : Memory) (a b : Nat) (w : Word), a ≠ b →
    Memory.readWord (Memory.writeWord m a w) b = Memory.readWord m b
  | [], a, b, w, hab => Memory.readWord_consWord_ne a b w [] hab
  | (c, v) :: rest, a, b, w, hab => by
    simp only [Memory.writeWord]
    split
    · exact Memory.readWord_consWord_ne a b w _ hab
    · split
      · rename_i h
        subst h
        rw [Memory.readWord_consWord_ne a b w rest hab]
        simp [Memory.readWord, hab]
      · simp only [Memory.readWord, Memory.readWord_writeWord_ne rest a b w hab]

/-- In a canonical store a read of the written address gives the word written. -/
theorem Memory.readWord_writeWord_same : ∀ (m : Memory) (n a : Nat) (w : Word), Memory.wfFrom n m = true →
    Memory.readWord (Memory.writeWord m a w) a = w
  | [], _, a, w, _ => Memory.readWord_consWord_same a w [] rfl
  | (c, v) :: rest, n, a, w, h => by
    simp only [Memory.wfFrom, Bool.and_eq_true, decide_eq_true_eq] at h
    obtain ⟨⟨hc, hv⟩, hr⟩ := h
    simp only [Memory.writeWord]
    split
    · rename_i hac
      refine Memory.readWord_consWord_same a w _ ?_
      have hca : ¬ c = a := by omega
      simp only [Memory.readWord, if_neg hca]
      exact Memory.readWord_below rest (c + 1) a hr (by omega)
    · split
      · rename_i h'
        subst h'
        exact Memory.readWord_consWord_same a w rest (Memory.readWord_below rest (a + 1) a hr (by omega))
      · rename_i hac
        have hca : ¬ c = a := fun e => hac e.symm
        simp only [Memory.readWord, if_neg hca]
        exact Memory.readWord_writeWord_same rest (c + 1) a w hr

/-! ## The canonical form -/

theorem Memory.wfFrom_mono : ∀ (m : Memory) (n k : Nat), k ≤ n → Memory.wfFrom n m = true → Memory.wfFrom k m = true
  | [], _, _, _, _ => rfl
  | (b, v) :: rest, n, k, hk, h => by
    simp only [Memory.wfFrom, Bool.and_eq_true, decide_eq_true_eq] at h ⊢
    exact ⟨⟨by omega, h.1.2⟩, h.2⟩

theorem Memory.wfFrom_consWord (m : Memory) (n a : Nat) (w : Word) (hn : n ≤ a)
    (h : Memory.wfFrom (a + 1) m = true) : Memory.wfFrom n (Memory.consWord a w m) = true := by
  unfold Memory.consWord
  split
  · exact Memory.wfFrom_mono m (a + 1) n (by omega) h
  · simp only [Memory.wfFrom, Bool.and_eq_true, decide_eq_true_eq]
    exact ⟨⟨hn, by assumption⟩, h⟩

theorem Memory.wfFrom_writeWord : ∀ (m : Memory) (n a : Nat) (w : Word), n ≤ a → Memory.wfFrom n m = true →
    Memory.wfFrom n (Memory.writeWord m a w) = true
  | [], n, a, w, hn, _ => Memory.wfFrom_consWord [] n a w hn rfl
  | (c, v) :: rest, n, a, w, hn, h => by
    have h' := h
    simp only [Memory.wfFrom, Bool.and_eq_true, decide_eq_true_eq] at h'
    obtain ⟨⟨hc, hv⟩, hr⟩ := h'
    simp only [Memory.writeWord]
    split
    · refine Memory.wfFrom_consWord _ n a w hn ?_
      simp only [Memory.wfFrom, Bool.and_eq_true, decide_eq_true_eq]
      exact ⟨⟨by omega, hv⟩, hr⟩
    · split
      · rename_i h'
        subst h'
        exact Memory.wfFrom_consWord rest n a w hn hr
      · simp only [Memory.wfFrom, Bool.and_eq_true, decide_eq_true_eq]
        exact ⟨⟨hc, hv⟩, Memory.wfFrom_writeWord rest (c + 1) a w (by omega) hr⟩

/-- A write keeps the canonical form. -/
theorem Memory.wf_writeWord (m : Memory) (a : Nat) (w : Word) (h : Memory.wf m = true) :
    Memory.wf (Memory.writeWord m a w) = true :=
  Memory.wfFrom_writeWord m 0 a w (Nat.zero_le a) h

/-- A write of the call store keeps its canonical form. -/
theorem State.writeMem_wf (s : State) (a w : Word) (h : Memory.wf s.mem = true) :
    Memory.wf (s.writeMem a w).mem = true :=
  Memory.wf_writeWord s.mem a.toNat w h

/-- The words of a burst keep the canonical form. -/
theorem State.writeWords_wf (addr : Nat → Word) : ∀ (ws : List Word) (s : State) (i : Nat),
    Memory.wf s.mem = true → Memory.wf (s.writeWords addr i ws).mem = true
  | [], _, _, h => h
  | w :: rest, s, i, h => State.writeWords_wf addr rest (s.writeMem (addr i) w) (i + 1) (s.writeMem_wf (addr i) w h)

/-- The two words of a meter record keep the canonical form. -/
theorem State.writeMeter_wf (s : State) (l : Line) (count wrap : Nat) (h : Memory.wf s.mem = true) :
    Memory.wf (s.writeMeter l count wrap).mem = true :=
  State.writeMem_wf _ _ _ (State.writeMem_wf _ _ _ h)

/-- After reset nothing is listed. -/
theorem State.reset_mem_wf : Memory.wf State.reset.mem = true := rfl

/-! ## Reads of the state's call store -/

theorem State.readMem_writeMem_same (s : State) (a w : Word) (h : Memory.wf s.mem = true) :
    (s.writeMem a w).readMem a = w :=
  Memory.readWord_writeWord_same s.mem 0 a.toNat w h

theorem State.readMem_writeMem_ne (s : State) (a b w : Word) (hab : a ≠ b) :
    (s.writeMem a w).readMem b = s.readMem b :=
  Memory.readWord_writeWord_ne s.mem a.toNat b.toNat w fun h => hab (BitVec.eq_of_toNat_eq h)

end Sys2Proof.Machine
end

