-- ==== Sys2Proof/Laws/Operate.lean ====
section
/-!
SUPPORT. What the shared operations of the Operate Controller and of clearing can do, each said once: recording a crosspoint,
handing a connect result, freeing an operate slot, entering CLEARING, completing a break job, and matching a response.
-/

namespace Sys2Proof.Machine

/-! ## Reading the tables through a report or a change of the transmit queue -/

@[simp] theorem State.record_report (s : State) (r : Report) (x : Circuit) : (s.report r).record x = s.record x := by
  simp [State.record]

@[simp] theorem State.line_report (s : State) (r : Report) (l : Line) : (s.report r).line l = s.line l := by
  simp [State.line]

@[simp] theorem State.link_report (s : State) (r : Report) (gk : LineGroup × LinkNo) : (s.report r).link gk = s.link gk := by
  simp [State.link]

@[simp] theorem State.record_setLine (s : State) (l : Line) (e : LineEntry) (x : Circuit) : (s.setLine l e).record x = s.record x := rfl

@[simp] theorem State.record_withdraw (s : State) (c : PortCommand) (x : Circuit) : (s.withdraw c).record x = s.record x := rfl

@[simp] theorem State.record_issue (s : State) (c : PortCommand) (x : Circuit) : (s.issue c).record x = s.record x := rfl

/-! ## Setting a record to what it is -/

/-- Storing a record over itself changes nothing. -/
theorem State.records_set_self (s : State) (x : Circuit) (r : CallRecord) (h : r = s.record x) :
    s.records.set x.val r x.isLt = s.records := by
  subst h
  simp [State.record]

/-! ## Faults (R8, R12, R65) -/

/-- Taking a link out of service (R8). -/
theorem State.linkOut_eq (s : State) (xp : Crosspoint) : s.linkOut (crosspointLink xp) = s.linkTakenOut xp := rfl

/-- Recording a crosspoint after a failed MAKE (R12). -/
theorem State.recordFault_eq (s : State) (xp : Crosspoint) (c : FaultCause) : s.recordFault xp c = s.makeFaultRecorded xp c := by
  unfold State.recordFault State.makeFaultRecorded State.faulty
  by_cases h : xp ∈ s.faults
  · simp [h]
  · by_cases hl : 32 ≤ s.faults.length
    · simp [h, hl, Config.faultTableCapacity, Nat.not_lt.mpr hl, State.linkOut_eq]
    · simp [h, hl, Config.faultTableCapacity, Nat.lt_of_not_le hl, State.addFault]

/-- Recording a crosspoint after a failed BREAK (R12, R65). -/
theorem State.recordBreakFault_eq (s : State) (xp : Crosspoint) : s.recordBreakFault xp = s.breakFaultRecorded xp := by
  unfold State.recordBreakFault State.breakFaultRecorded State.faulty
  by_cases h : xp ∈ s.faults
  · simp [h, State.linkOut_eq]
  · by_cases hl : 32 ≤ s.faults.length
    · simp [h, hl, Config.faultTableCapacity, Nat.not_lt.mpr hl, State.linkOut_eq]
    · simp [h, hl, Config.faultTableCapacity, Nat.lt_of_not_le hl, State.addFault, State.linkOut_eq]

/-! ## Results and operate slots (R51, R57, R61) -/

/-- Handing the connect result of a record: the result goes to the bound slot, if any, and the binding is absent. -/
theorem State.handConnectResult_eq (s : State) (x : Circuit) (code : ResultCode) :
    s.handConnectResult x code
      = { s with
          records := s.records.set x.val { s.record x with boundSlot := none } x.isLt,
          results := s.results ++ connectResult x (s.record x) code } := by
  unfold State.handConnectResult connectResult
  cases hb : (s.record x).boundSlot with
  | some b => rfl
  | none =>
    have : ({ s.record x with boundSlot := none } : CallRecord) = s.record x := by
      conv_rhs => rw [show s.record x = { s.record x with boundSlot := (s.record x).boundSlot } from rfl, hb]
    simp [State.records_set_self s x _ this]

/-- The slot of a record freed with nobody waiting (R51). -/
theorem State.freeSlotOf_nobody (s : State) (x : Circuit) (h : s.waitList = []) :
    s.freeSlotOf x = { s with operateSlots := s.operateSlots.map fun o => if o = some x then none else o } := by
  unfold State.freeSlotOf State.grantSlot
  simp only [h]
  split <;> simp_all

/-- A make job starts with a crosspoint to make (R53, R56). -/
theorem State.startMakeJob_some (s : State) (x : Circuit) (xp : Crosspoint) (h : nextUnmade (s.record x).path = some xp) :
    s.startMakeJob x
      = { s with
          records := s.records.set x.val
            { s.record x with state := .setting, path := markPath (s.record x).path xp .inFlight } x.isLt,
          txQueue := s.txQueue ++ [.makeCmd x xp] } := by
  unfold State.startMakeJob
  simp only [State.modifyRecord_eq, State.record_setRecord_same, h]
  simp [State.issueMake, State.markPoint, State.issue, State.setRecord]
  simp [State.record]

/-- The one free slot is granted to the head of the wait list in the event that frees it (R53). -/
theorem State.grantSlot_head (s : State) (i : Fin 4) (free : List (Fin 4)) (x : Circuit) (rest : List Circuit)
    (hf : s.freeOperateSlots = i :: free) (hw : s.waitList = x :: rest) :
    s.grantSlot = ({ s with waitList := rest }.setOperateSlot i (some x)).startMakeJob x := by
  simp only [State.grantSlot, hf, hw]

/-! ## Clearing (R36, R37, R64) -/

/-- A record enters CLEARING with a crosspoint made: its break job begins with the last one (R36, R64). -/
theorem State.enterClearing_made (s : State) (x : Circuit) (c : ClearCause) (xp : Crosspoint)
    (h : nextMade (s.record x).path = some xp) : s.enterClearing x c = s.clearedTo x c xp := by
  have hm : ((s.markClearing x c).record x).path = (s.record x).path := by simp [State.markClearing]
  unfold State.enterClearing State.breakNext
  rw [hm, h]
  unfold State.issueBreak State.markPoint State.markClearing State.clearedTo State.report
  by_cases hr : s.reports.length < Config.reportQueueCapacity <;>
    simp [hr, State.withdraw, State.setRecord, State.record, State.issue]

/-- The completion of the break job of a record that yields no ticket: links and lines free, the record in GUARD (R7, R37, R49). -/
theorem State.breakComplete_plain (s : State) (x : Circuit) (h : (s.record x).yieldsTicket = false) :
    s.breakComplete x = ((s.releaseRequest x).freeLines x).setRecord x
      { CallRecord.blank .guarded with guardTimer := some 1228800 } := by
  unfold State.breakComplete State.enterGuard
  simp [h, State.setRecord, Config.releaseGuardPeriods]

/-- The lines of a record freed (R26, R34, R37). -/
theorem State.freeLines_line (s : State) (x : Circuit) (l : Line) :
    (s.freeLines x).line l
      = if some l = (s.record x).calling ∨ some l = calledLine (s.record x).called then { s.line l with busy := none }
        else s.line l := by
  unfold State.freeLines
  cases h1 : (s.record x).calling with
  | none =>
    cases h2 : calledLine (s.record x).called with
    | none => simp
    | some b =>
      by_cases hb : l = b
      · simp [hb]
      · simp [hb, State.line_setLine_ne]
  | some a =>
    cases h2 : calledLine (s.record x).called with
    | none =>
      by_cases ha : l = a
      · simp [ha]
      · simp [ha, State.line_setLine_ne]
    | some b =>
      by_cases hb : l = b
      · by_cases ha : l = a
        · subst ha; subst hb; simp
        · have : b ≠ a := hb ▸ ha
          subst hb; simp [State.line_setLine_ne, this]
      · by_cases ha : l = a
        · subst ha; simp [hb, State.line_setLine_ne]
        · simp [ha, hb, State.line_setLine_ne]

/-- Freeing the lines of a record touches the lines alone. -/
theorem State.freeLines_eq (s : State) (x : Circuit) : s.freeLines x = { s with lines := (s.freeLines x).lines } := by
  unfold State.freeLines
  cases (s.record x).calling <;> cases calledLine (s.record x).called <;> rfl

/-- The links of a circuit freed (R7). -/
theorem State.releaseRequest_link (s : State) (x : Circuit) (gk : LineGroup × LinkNo) :
    (s.releaseRequest x).link gk = if (s.link gk).holder = some x then { s.link gk with holder := none } else s.link gk := by
  by_cases h : (s.links[linkIndex gk]).holder = some x <;> simp_all [State.releaseRequest, State.link]

/-- A record of another circuit is not touched by storing one. -/
theorem State.record_set (s : State) (x y : Circuit) (r : CallRecord) :
    ({ s with records := s.records.set x.val r x.isLt } : State).record y = if y = x then r else s.record y := by
  by_cases h : y = x
  · subst h; simp [State.record]
  · have h' : x.val ≠ y.val := fun e => h (Fin.ext e.symm)
    simp [State.record, Vector.getElem_set_ne, h', h]

/-- A record that was not answered enters CLEARING with nothing made: its break job is complete at once (R36, R37, R64). -/
theorem State.enterClearing_unmade (s : State) (x : Circuit) (c : ClearCause) (hm : nextMade (s.record x).path = none)
    (hs : (s.record x).stamp = none) : s.ClearedAtOnce (s.enterClearing x c) x c := by
  let v := s.markClearing x c
  have hr : v.record x = { s.record x with
      state := .clearing, cause := some c, settle := none, calledClear := none, grace := none, releasePending := false } := by
    simp [v, State.markClearing]
  have hrn : ∀ y, y ≠ x → v.record y = s.record y := by
    intro y hy; simp [v, State.markClearing, State.record_setRecord_ne _ _ _ _ hy]
  have hl : ∀ l, v.line l = s.line l := by intro l; simp [v, State.markClearing, State.line]
  have hk : ∀ gk, v.link gk = s.link gk := by intro gk; simp [v, State.markClearing, State.link]
  have e : s.enterClearing x c = ((v.releaseRequest x).freeLines x).setRecord x
      { CallRecord.blank .guarded with guardTimer := some 1228800 } := by
    unfold State.enterClearing State.breakNext
    simp only [show s.markClearing x c = v from rfl, hr, hm]
    exact State.breakComplete_plain v x (by simp [hr, CallRecord.yieldsTicket, hs])
  have hrr : (v.releaseRequest x).record x = v.record x := rfl
  rw [e]
  refine ⟨by simp, ?_, ?_, ?_, ?_⟩
  · intro y hy
    rw [State.record_setRecord_ne _ _ _ _ hy, State.freeLines_eq]
    exact hrn y hy
  · intro l
    show ((v.releaseRequest x).freeLines x).line l = _
    rw [State.freeLines_line, hrr, hr]
    show (if _ then { v.line l with busy := none } else v.line l) = _
    rw [hl]
  · intro gk
    rw [State.freeLines_eq]
    show (v.releaseRequest x).link gk = _
    rw [State.releaseRequest_link, hk]
  · rw [State.freeLines_eq]
    simp only [State.releaseRequest, v, State.markClearing, State.setRecord, State.modifyRecord, State.withdraw, State.report]
    by_cases h : s.reports.length < Config.reportQueueCapacity <;> simp [h, State.ArbiterOnly]

/-! ## Matching a response or a timeout (R55) -/

/-- With an entry that answers, the entry leaves and its job takes the event; then the arbiter chooses (R55). -/
theorem State.matched_awaits (s : State) (k : JobKind) (xp : Crosspoint) (x : Circuit) (rest : List Outstanding)
    (f : State → Circuit → State) (h : s.awaits k xp x rest) :
    s.matched k xp f = (f { s with outstanding := rest } x).askPort := by
  obtain ⟨before, o, after, ho, h1, h2, h3, h4, h5⟩ := h
  have hb : ∀ q ∈ before, q.answers k xp = false := by
    intro q hq
    have := h4 q hq
    simp [Outstanding.answers]
    tauto
  have hoo : o.answers k xp = true := by simp [Outstanding.answers, h1, h2]
  have e1 : s.outstandingFor k xp = some o := by
    simp only [State.outstandingFor, ho]
    rw [List.find?_append, List.find?_eq_none.mpr (by intro q hq; simp [hb q hq])]
    simp [hoo]
  have e2 : s.dropOutstanding k xp = { s with outstanding := rest } := by
    simp only [State.dropOutstanding, ho]
    congr 1
    rw [List.eraseP_append_right _ (by intro q hq; simp [hb q hq]), List.eraseP_cons_of_pos (by simpa using hoo), h5]
  simp only [State.matched, e1, e2, h3]

end Sys2Proof.Machine
end

