-- ==== Sys2Proof/Laws/Metering.lean ====
section
/-!
SUPPORT. Charging pulses: what one charge, several charges, and the pulses of an ordinary record can do, each said once.
-/

namespace Sys2Proof.Machine

/-- A count that stays at its limit is a minimum. -/
theorem saturatingSucc_eq_min (n limit : Nat) (h : n ≤ limit) : saturatingSucc n limit = min limit (n + 1) := by
  unfold saturatingSucc
  split <;> omega

/-- A charge to a line below the limit of its pending count (R93). -/
theorem State.chargeLine_room (s : State) (l : Line) (h : (s.line l).pulses < 65535) :
    s.chargeLine l = s.setLine l { s.line l with pulses := (s.line l).pulses + 1 } := by
  simp [State.chargeLine, Config.countMax, h]

/-- A charge to a line at the limit is lost, and found SATURATED once (R93, R94). -/
theorem State.chargeLine_full (s : State) (l : Line) (h : 65535 ≤ (s.line l).pulses) :
    s.chargeLine l =
      if (s.line l).fault = .saturated then s
      else (s.setLine l { s.line l with fault := .saturated }).report (.meterFault l .saturated) := by
  simp [State.chargeLine, Config.countMax, Nat.not_lt.mpr h]

/-- Storing a line over itself changes nothing. -/
theorem State.setLine_self (s : State) (l : Line) (e : LineEntry) (h : e = s.line l) : s.setLine l e = s := by
  subst h
  simp [State.setLine, State.line]

/-- Storing a record over itself changes nothing. -/
theorem State.setRecord_self (s : State) (x : Circuit) (r : CallRecord) (h : r = s.record x) : s.setRecord x r = s := by
  subst h
  simp [State.setRecord, State.record]

theorem State.setLine_twice (s : State) (l : Line) (e e' : LineEntry) : (s.setLine l e).setLine l e' = s.setLine l e' := by
  simp [State.setLine]

/-- Several charges of a record to its calling line, with room (R117). -/
theorem State.chargeSettled_room (x : Circuit) (l : Line) : ∀ (n : Nat) (s : State), (s.record x).calling = some l →
    (s.line l).pulses + n ≤ 65535 →
    s.chargeSettled x n = s.setLine l { s.line l with pulses := (s.line l).pulses + n }
  | 0, s, _, _ => (State.setLine_self s l _ rfl).symm
  | n + 1, s, hc, hn => by
    have h1 : s.chargeCaller x = s.setLine l { s.line l with pulses := (s.line l).pulses + 1 } := by
      simp only [State.chargeCaller, hc]
      exact State.chargeLine_room s l (by omega)
    show State.chargeSettled (s.chargeCaller x) x n = _
    rw [h1, State.chargeSettled_room x l n _ (by simpa using hc) (by simp; omega), State.setLine_twice]
    simp [Nat.add_assoc, Nat.add_comm]

/-- The pulses of an ordinary record, with room on its paid count and its line (R92, R93). -/
theorem State.pulses_ordinary (x : Circuit) (l : Line) : ∀ (n : Nat) (s : State), (s.record x).calling = some l →
    (s.record x).coin = false → (s.record x).paid + n ≤ 65535 → (s.line l).pulses + n ≤ 65535 →
    s.pulses x n = (s.setRecord x { s.record x with paid := (s.record x).paid + n }).setLine l
      { s.line l with pulses := (s.line l).pulses + n }
  | 0, s, _, _, _, _ => by
    show s = (s.setRecord x (s.record x)).setLine l (s.line l)
    rw [State.setRecord_self s x _ rfl, State.setLine_self s l _ rfl]
  | n + 1, s, hc, ho, hp, hl => by
    have h1 : s.pulse x = (s.setRecord x { s.record x with paid := (s.record x).paid + 1 }).setLine l
        { s.line l with pulses := (s.line l).pulses + 1 } := by
      have hs : saturatingSucc (s.record x).paid Config.countMax = (s.record x).paid + 1 := by
        unfold saturatingSucc Config.countMax
        rw [if_pos (by omega)]
      simp only [State.pulse, ho, Bool.false_eq_true, if_false, State.ordinaryPulse, State.modifyRecord_eq, hs,
        State.chargeCaller, State.record_setRecord_same, hc]
      exact State.chargeLine_room _ l (by show (s.line l).pulses < 65535; omega)
    show State.pulses (s.pulse x) x n = _
    rw [h1]
    rw [State.pulses_ordinary x l n _ (by simp [State.record_setLine, hc]) (by simp [State.record_setLine, ho])
      (by simp [State.record_setLine]; omega) (by simp; omega)]
    simp [State.setLine, State.setRecord, State.line, State.record, Nat.add_assoc, Nat.add_comm]

end Sys2Proof.Machine
end

