-- ==== Sys2Proof/Laws/Network.lean ====
section
/-!
SUPPORT. What the hunts do, each said once: when a circuit is suitable (R16 to R18, R20), which one is chosen, and what holding the
links of a path changes (R19).
-/

namespace Sys2Proof.Machine

/-! ## Suitability -/

/-- A crosspoint may be used outside a re-hunt when its link is free and in service and it is not listed (R16 to R18). -/
theorem State.crosspointUsable_iff (s : State) (ex : Exclusion) (xp : Crosspoint) :
    s.crosspointUsable ex xp = true ↔ ((s.link (crosspointLink xp)).holder = none
      ∧ (s.link (crosspointLink xp)).inService = true ∧ xp ∉ s.faults) ∧ crosspointLink xp ∉ ex.links := by
  simp [State.crosspointUsable, State.faulty]
  tauto

/-- The paths an exclusion leaves usable (R16 to R18, R20). -/
theorem State.path_all_iff (s : State) (ex : Exclusion) (p : Path) :
    p.all (fun q => s.crosspointUsable ex q.xp) = true ↔ s.pathFree p ∧ ∀ q ∈ p, crosspointLink q.xp ∉ ex.links := by
  simp only [List.all_eq_true, State.crosspointUsable_iff, State.pathFree]
  constructor
  · intro h
    exact ⟨fun q hq => (h q hq).1, fun q hq => (h q hq).2⟩
  · intro h q hq
    exact ⟨h.1 q hq, h.2 q hq⟩

/-- A circuit is suitable with nothing excluded (R16, R17). -/
theorem State.suitable_noExclusion (s : State) (x : Circuit) (p : Path) :
    s.suitable noExclusion x p = true ↔ (s.record x).state = .free ∧ s.circuitInService[x] = true ∧ s.pathFree p := by
  simp only [State.suitable, State.pathUsable, Bool.and_eq_true, decide_eq_true_eq, State.path_all_iff]
  simp [noExclusion]

theorem State.localSuitable_iff (s : State) (c : Cord) (la lb : Line) :
    s.suitable noExclusion (cordCircuit c) (localPath c la lb) = true ↔ s.cordSuitable la lb c :=
  State.suitable_noExclusion _ _ _

theorem State.outgoingSuitable_iff (s : State) (la : Line) (g : JunctionGroup) (q : Fin 8) :
    s.suitable noExclusion (groupCircuit g q) (outgoingPath (groupCircuit g q) la) = true ↔ s.junctionSuitable la g q :=
  State.suitable_noExclusion _ _ _

theorem State.incomingSuitable_iff (s : State) (x : Circuit) (lb : Line) :
    s.pathUsable noExclusion x (incomingPath x lb) = true ↔ s.incomingSuitable x lb := by
  simp only [State.pathUsable, Bool.and_eq_true, decide_eq_true_eq, State.path_all_iff]
  simp [noExclusion, State.incomingSuitable]

theorem circuitKind_local {x : Circuit} (h : x.val < 24) : circuitKind x = .localCall := by
  rw [circuitKind, if_pos h]

theorem circuitKind_outgoing {x : Circuit} (h : 24 ≤ x.val) (h' : x.val < 48) : circuitKind x = .outgoing := by
  rw [circuitKind, if_neg (by omega), if_pos h']

theorem circuitKind_incoming {x : Circuit} (h : 48 ≤ x.val) : circuitKind x = .incoming := by
  rw [circuitKind, if_neg (by omega), if_neg (by omega)]

/-- A circuit shares no terminal with another (R2). -/
theorem circuitTerminals_apart {x y : Circuit} (h : y ≠ x) (hk : circuitKind x = circuitKind y) :
    ∀ t ∈ circuitTerminals y, t ∉ circuitTerminals x := by
  have hv : y.val ≠ x.val := fun e => h (Fin.ext e)
  unfold circuitKind at hk
  intro t ht
  unfold circuitTerminals at *
  split at ht <;> split
  · simp [cordTerminal0, cordTerminal1] at ht ⊢
    rcases ht with rfl | rfl <;> simp <;> omega
  · rename_i h1 h2
    simp [h1, h2] at hk
    split at hk <;> cases hk
  · rename_i h1 h2
    simp [h1, h2] at hk
    split at hk <;> cases hk
  · simp [junctionTerminal] at ht ⊢
    subst ht
    simp
    omega

/-- The local re-hunt may take a cord (R20). -/
theorem State.movesToCord_iff (s : State) (x : Circuit) (hx : x.val < 24) (la lb : Line) (c : Cord) :
    s.suitable (failedExclusion x (s.record x).path) (cordCircuit c) (localPath c la lb) = true ↔ s.movesToCord x la lb c := by
  have hk : circuitKind x = circuitKind (cordCircuit c) := by
    rw [circuitKind_local hx, circuitKind_local (x := cordCircuit c) (by simp [cordCircuit])]
  simp only [State.suitable, State.pathUsable, Bool.and_eq_true, decide_eq_true_eq, State.path_all_iff, State.movesToCord,
    State.cordSuitable]
  constructor
  · rintro ⟨h1, ⟨⟨h2, h3, h4⟩, -⟩, h6⟩
    refine ⟨?_, ⟨h1, h2, h3⟩, by simpa [failedExclusion] using h4⟩
    intro e
    apply h6
    simp [failedExclusion, circuitKind_local hx, e]
  · rintro ⟨h1, ⟨h2, h3, h4⟩, h5⟩
    refine ⟨h2, ⟨⟨h3, h4, by simpa [failedExclusion] using h5⟩, ?_⟩, ?_⟩
    · simpa [failedExclusion] using circuitTerminals_apart h1 hk
    · simp [failedExclusion, circuitKind_local hx, Ne.symm h1]

/-- The outgoing re-hunt may take a junction of the group (R20). -/
theorem State.movesToJunction_iff (s : State) (x : Circuit) (hx : 24 ≤ x.val) (hx' : x.val < 48) (la : Line) (g : JunctionGroup)
    (q : Fin 8) :
    s.suitable (failedExclusion x (s.record x).path) (groupCircuit g q) (outgoingPath (groupCircuit g q) la) = true
      ↔ s.movesToJunction x la g q := by
  have hk : circuitKind x = circuitKind (groupCircuit g q) := by
    rw [circuitKind_outgoing hx hx', circuitKind_outgoing] <;> simp [groupCircuit] <;> omega
  have hn : circuitKind x ≠ .localCall := by rw [circuitKind_outgoing hx hx']; decide
  simp only [State.suitable, State.pathUsable, Bool.and_eq_true, decide_eq_true_eq, State.path_all_iff, State.movesToJunction,
    State.junctionSuitable]
  constructor
  · rintro ⟨h1, ⟨⟨h2, h3, h4⟩, h5⟩, -⟩
    refine ⟨?_, ⟨h1, h2, h3⟩, by simpa [failedExclusion] using h4⟩
    intro e
    rw [e] at h5
    have ht : circuitTerminals x = [junctionTerminal x] := by rw [circuitTerminals, dif_neg (by omega)]
    simp [failedExclusion, ht] at h5
  · rintro ⟨h1, ⟨h2, h3, h4⟩, h5⟩
    refine ⟨h2, ⟨⟨h3, h4, by simpa [failedExclusion] using h5⟩, ?_⟩, ?_⟩
    · simpa [failedExclusion] using circuitTerminals_apart h1 hk
    · simp [failedExclusion, hn]

/-! ## The first suitable candidate -/

/-- The first of the candidates from a pointer upward that passes a test. -/
theorem find_from {n : Nat} (f : Fin n → Fin n) (test : Fin n → Bool) (k : Fin n) (h : test (f k) = true)
    (hlt : ∀ m, m < k → test (f m) = false) : ((List.finRange n).map f).find? test = some (f k) := by
  rw [List.find?_map]
  have : (List.finRange n).find? (test ∘ f) = some k := by
    rw [List.find?_eq_some_iff_getElem]
    refine ⟨h, k.val, by simp, by simp, ?_⟩
    intro j hj
    simpa using hlt ⟨j, by omega⟩ hj
  rw [this]
  rfl

/-- No candidate passes. -/
theorem find_from_none {n : Nat} (f : Fin n → Fin n) (test : Fin n → Bool) (h : ∀ m, test (f m) = false) :
    ((List.finRange n).map f).find? test = none := by
  rw [List.find?_eq_none]
  intro a ha
  obtain ⟨m, -, rfl⟩ := List.mem_map.mp ha
  simp [h m]

/-! ## Holding the links of a path (R19) -/

/-- Holding links touches the links alone. -/
theorem State.holdLinks_eq (x : Circuit) : ∀ (p : Path) (s : State), s.holdLinks x p = { s with links := (s.holdLinks x p).links }
  | [], _ => rfl
  | q :: rest, s => by
    show State.holdLinks (s.modifyLink _ _) x rest = _
    rw [State.holdLinks_eq x rest]
    rfl

/-- The links of the path are held by the circuit, the others are as they were (R19). -/
theorem State.holdLinks_link (x : Circuit) (gk : LineGroup × LinkNo) : ∀ (p : Path) (s : State), (s.holdLinks x p).link gk
    = if gk ∈ p.map (fun q => crosspointLink q.xp) then { s.link gk with holder := some x } else s.link gk
  | [], _ => by simp [State.holdLinks]
  | q :: rest, s => by
    show (State.holdLinks (s.modifyLink _ _) x rest).link gk = _
    rw [State.holdLinks_link x gk rest]
    by_cases h : gk = crosspointLink q.xp
    · subst h
      by_cases h' : crosspointLink q.xp ∈ rest.map (fun q => crosspointLink q.xp) <;> simp [h']
    · simp [h, State.link_modifyLink_ne _ _ _ _ h]

end Sys2Proof.Machine
end

