-- ==== Sys2Proof/Laws/Orders.lean ====
section
/-!
SUPPORT. What giving an order does in a state that takes it at once, and in a state that does not take it: said once for every
order, from what its own rule answers.
-/

namespace Sys2Proof.Machine

/-- Setting a slot's state twice leaves the second. -/
theorem State.setSlotState_twice (s : State) (i : OrderSlot) (a b : SlotState) :
    (s.setSlotState i a).setSlotState i b = s.setSlotState i b := by
  simp [State.modifySlot, State.slot]

/-- An order that may not be taken changes nothing (R144; assumption log 5). -/
theorem State.giveOrder_refused (s : State) (e : OrderEntry) (h : s.mayTake e = false) : s.giveOrder e = s := by
  simp [State.giveOrder, h]

theorem State.mayTake_free (s : State) (e : OrderEntry) (h : s.OrderFree e.slot) : s.mayTake e = true := by
  obtain ⟨hp, hs, hq, -, -, hst, ho⟩ := h
  simp [State.mayTake, State.slotReserved, State.isReady, hp, hs, hq, State.placeReserved, ho, hst, Config.orderQueueCapacity]

/-- A ready dispatcher takes the head of the queue (R148). -/
theorem runDispatcher_take (n : Nat) (s : State) (e : OrderEntry) (rest : List OrderEntry) (hd : s.dispatcher = .ready)
    (hq : s.orderQueue = e :: rest) :
    runDispatcher (n + 1) s = runDispatcher n ({ s with orderQueue := rest }.keepPlace.dispatch e) := by
  rw [runDispatcher, hd, hq]

/-- A dispatcher that waits takes nothing (R148). -/
theorem runDispatcher_waiting (n : Nat) (s : State) (i : OrderSlot) (hd : s.dispatcher = .waiting i) :
    runDispatcher n s = s := by
  cases n with
  | zero => rfl
  | succ n => rw [runDispatcher, hd]

/-- An empty queue gives the dispatcher nothing. -/
theorem runDispatcher_empty (n : Nat) (s : State) (hq : s.orderQueue = []) : runDispatcher n s = s := by
  cases n with
  | zero => rfl
  | succ n => rw [runDispatcher, hq]; split <;> simp_all

/-- At a ready dispatcher and an empty queue the order taken is dispatched at once (R145, R148). -/
theorem State.giveOrder_free (s : State) (e : OrderEntry) (h : s.OrderFree e.slot) :
    s.giveOrder e = (runDispatcher 1 (s.dispatch e)).askPort := by
  obtain ⟨hp, hs, hq, hd, hc, hst, ho⟩ := h
  have ht := State.mayTake_free s e ⟨hp, hs, hq, hd, hc, hst, ho⟩
  have hk : ({ s.enqueueOrder e with orderQueue := [] } : State).keepPlace.dispatch e = s.dispatch e := by
    have h1 : ({ s.enqueueOrder e with orderQueue := [] } : State).keepPlace = s.setSlotState e.slot .queued := by
      simp only [State.keepPlace, State.enqueueOrder]
      simp [hst, State.modifySlot, State.slot, ← hq]
    rw [h1, State.dispatch, State.setSlotState_twice, ← State.dispatch]
  have hd' : (s.enqueueOrder e).dispatcher = .ready := by simp [State.enqueueOrder, hd]
  have hq' : (s.enqueueOrder e).orderQueue = [e] := by simp [State.enqueueOrder, hq]
  simp only [State.giveOrder, ht, if_true, State.takeOrder, State.runDispatch]
  congr 1
  rw [hq']
  show runDispatcher 2 (s.enqueueOrder e) = _
  rw [runDispatcher_take 1 _ e [] hd' hq', hk]

/-- An order answered in the event in which it is taken (R149). -/
theorem State.giveOrder_result (s s' : State) (e : OrderEntry) (code : ResultCode) (x : Option Circuit)
    (h : s.OrderFree e.slot) (hr : applyOrder e (s.setSlotState e.slot .inFlight) = .result code x s') :
    s.giveOrder e = { s'.handResult e.slot code x with dispatcher := .waiting e.slot }.askPort := by
  rw [State.giveOrder_free s e h]
  simp only [State.dispatch, hr, runDispatcher]

/-- An order answered without a change: its result alone stands (R149). -/
theorem State.giveOrder_refusal (s : State) (e : OrderEntry) (code : ResultCode) (x : Option Circuit)
    (h : s.OrderFree e.slot)
    (hr : applyOrder e (s.setSlotState e.slot .inFlight) = .result code x (s.setSlotState e.slot .inFlight)) :
    s.giveOrder e = (s.answered e.slot code x).askPort :=
  State.giveOrder_result s _ e code x h hr

/-- An admitted CONNECT (R149). -/
theorem State.giveOrder_admitted (s s' : State) (e : OrderEntry) (h : s.OrderFree e.slot)
    (hr : applyOrder e (s.setSlotState e.slot .inFlight) = .admitted s') (hq : s'.orderQueue = []) :
    s.giveOrder e = s'.askPort := by
  rw [State.giveOrder_free s e h]
  simp only [State.dispatch, hr]
  rw [runDispatcher_empty 1 s' hq]

/-- A SET METER that has passed its checks (R149). -/
theorem State.giveOrder_later (s s' : State) (e : OrderEntry) (h : s.OrderFree e.slot)
    (hr : applyOrder e (s.setSlotState e.slot .inFlight) = .later s') :
    s.giveOrder e = { s' with dispatcher := .waiting e.slot }.askPort := by
  rw [State.giveOrder_free s e h]
  simp only [State.dispatch, hr, runDispatcher]

end Sys2Proof.Machine
end

