-- ==== Sys2Proof/Laws/TimeBase.lean ====
section
/-!
SUPPORT. The band in force: that its evaluation follows R79, and what a re-evaluation can do, said once (R80, R81).
-/

namespace Sys2Proof.Machine

/-! ## The latest entry (R79) -/

/-- What the fold over valid entries holds: the entry of greatest minute, the last of them. -/
theorem foldl_laterEntry (es : List CalEntry) : ∀ (o : Option CalEntry) (b : CalEntry), es.foldl laterEntry o = some b →
    (o = some b ∧ ∀ e ∈ es, e.minute < b.minute) ∨
      (∃ front back, es = front ++ b :: back ∧ (∀ e ∈ back, e.minute < b.minute)
        ∧ (∀ e ∈ front, e.minute ≤ b.minute) ∧ ∀ a, o = some a → a.minute ≤ b.minute) := by
  induction es with
  | nil =>
    intro o b h
    exact .inl ⟨h, by simp⟩
  | cons e rest ih =>
    intro o b h
    rw [List.foldl_cons] at h
    rcases ih _ b h with ⟨h1, h2⟩ | ⟨front, back, h1, h2, h3, h4⟩
    · cases o with
      | none =>
        simp only [laterEntry, Option.some.injEq] at h1
        subst h1
        exact .inr ⟨[], rest, rfl, h2, by simp, by simp⟩
      | some a =>
        simp only [laterEntry] at h1
        split at h1
        · rename_i hle
          simp only [Option.some.injEq] at h1
          subst h1
          exact .inr ⟨[], rest, rfl, h2, by simp, by simpa using hle⟩
        · rename_i hle
          simp only [Option.some.injEq] at h1
          subst h1
          refine .inl ⟨rfl, ?_⟩
          intro e' he'
          rcases List.mem_cons.mp he' with rfl | he'
          · omega
          · exact h2 e' he'
    · refine .inr ⟨e :: front, back, by simp [h1], h2, ?_, ?_⟩
      · intro e' he'
        rcases List.mem_cons.mp he' with rfl | he'
        · cases o with
          | none => exact h4 _ rfl
          | some a =>
            have := h4
            simp only [laterEntry] at this
            split at this
            · exact this _ rfl
            · have := this _ rfl
              omega
        · exact h3 e' he'
      · intro a ha
        subst ha
        have := h4
        simp only [laterEntry] at this
        split at this
        · have := this _ rfl
          omega
        · exact this _ rfl

theorem foldl_laterEntry_none (es : List CalEntry) (h : es.foldl laterEntry none = none) : es = [] := by
  cases es with
  | nil => rfl
  | cons e rest =>
    exfalso
    have hs : ∀ (l : List CalEntry) (a : CalEntry), ∃ b, l.foldl laterEntry (some a) = some b := by
      intro l
      induction l with
      | nil => exact fun a => ⟨a, rfl⟩
      | cons e rest ih =>
        intro a
        rw [List.foldl_cons]
        simp only [laterEntry]
        split <;> exact ih _
    obtain ⟨b, hb⟩ := hs rest e
    rw [List.foldl_cons] at h
    simp only [laterEntry] at h
    rw [hb] at h
    cases h

/-- The winner under a test of the entries is the latest valid entry that passes it. -/
theorem State.latestEntry_winner (s : State) (test : CalEntry → Bool) (i : Fin 16)
    (h : s.calendarWinner (fun e => test e = true) i) :
    latestEntry (s.calendar.toList.filter test) = some s.calendar[i] := by
  obtain ⟨hv, ht, hw⟩ := h
  unfold latestEntry
  rw [List.filter_filter]
  have hsplit : s.calendar.toList = s.calendar.toList.take i.val ++ s.calendar[i] :: s.calendar.toList.drop (i.val + 1) := by
    have hlen : i.val < s.calendar.toList.length := by simp
    rw [show s.calendar[i] = s.calendar.toList[i.val] by simp]
    rw [List.getElem_cons_drop, List.take_append_drop]
  cases hf : List.foldl laterEntry none (List.filter (fun a => a.valid && test a) s.calendar.toList) with
  | none =>
    have := foldl_laterEntry_none _ hf
    rw [List.filter_eq_nil_iff] at this
    exact absurd (by rw [Bool.and_eq_true]; exact ⟨hv, ht⟩) (this s.calendar[i] (by simp))
  | some b =>
    rcases foldl_laterEntry _ none b hf with ⟨h1, -⟩ | ⟨front, back, h1, h2, h3, -⟩
    · cases h1
    · have hmem : ∀ j : Fin 16, (s.calendar[j]).valid = true → test s.calendar[j] = true →
          s.calendar[j] ∈ front ++ b :: back := by
        intro j hj hj'
        rw [← h1, List.mem_filter]
        exact ⟨by simp, by rw [Bool.and_eq_true]; exact ⟨hj, hj'⟩⟩
      rw [hsplit, List.filter_append, List.filter_cons_of_pos (by rw [Bool.and_eq_true]; exact ⟨hv, ht⟩)] at h1
      -- everything behind place i that passes is earlier
      have hback : ∀ e ∈ (s.calendar.toList.drop (i.val + 1)).filter (fun a => a.valid && test a),
          e.minute < (s.calendar[i]).minute := by
        intro e he
        obtain ⟨he1, he2⟩ := List.mem_filter.mp he
        simp only [Bool.and_eq_true] at he2
        obtain ⟨n, hn, rfl⟩ := List.mem_iff_getElem.mp he1
        have hn' : i.val + 1 + n < 16 := by simp at hn; omega
        rw [List.getElem_drop] at he2 ⊢
        have := hw ⟨i.val + 1 + n, hn'⟩ (by simpa using he2.1) (by simpa using he2.2)
        rcases this with h | ⟨-, h⟩
        · simpa using h
        · exact absurd h (by simp [Fin.le_def]; omega)
      have hfront : ∀ e ∈ (s.calendar.toList.take i.val).filter (fun a => a.valid && test a),
          e.minute ≤ (s.calendar[i]).minute := by
        intro e he
        obtain ⟨he1, he2⟩ := List.mem_filter.mp he
        simp only [Bool.and_eq_true] at he2
        obtain ⟨n, hn, rfl⟩ := List.mem_iff_getElem.mp he1
        have hn' : n < i.val := by simp at hn; omega
        rw [List.getElem_take] at he2 ⊢
        have := hw ⟨n, by omega⟩ (by simpa using he2.1) (by simpa using he2.2)
        rcases this with h | ⟨h, -⟩
        · simpa using h.le
        · simpa using h.le
      -- so the split at b is the split at place i
      rcases List.append_eq_append_iff.mp h1 with ⟨c, hc1, hc2⟩ | ⟨c, hc1, hc2⟩
      · cases c with
        | nil =>
          simp only [List.nil_append, List.cons.injEq] at hc2
          rw [hc2.1]
        | cons a rest =>
          simp only [List.cons_append, List.cons.injEq] at hc2
          have hb : b ∈ (s.calendar.toList.drop (i.val + 1)).filter (fun a => a.valid && test a) := by
            rw [hc2.2]; simp
          have hlt := hback b hb
          have hle := h3 s.calendar[i] (by rw [hc1, ← hc2.1]; simp)
          omega
      · cases c with
        | nil =>
          simp only [List.append_nil, List.nil_append, List.cons.injEq] at hc1 hc2
          rw [hc2.1]
        | cons a rest =>
          simp only [List.cons_append, List.cons.injEq] at hc2
          have hb : b ∈ (s.calendar.toList.take i.val).filter (fun a => a.valid && test a) := by
            rw [hc1, hc2.1]; simp
          have hle := hfront b hb
          have hlt := h2 s.calendar[i] (by rw [hc2.2]; simp)
          omega

/-- The evaluation of the band follows R79. -/
theorem State.evaluatedBand_rule (s : State) : s.BandRule s.evaluatedBand where
  unset h := by simp [State.evaluatedBand, h]
  thisWeek h i hi := by
    have := s.latestEntry_winner (fun e => decide (e.minute ≤ s.weekMinute)) i (by simpa using hi)
    simp [State.evaluatedBand, h, this]
  lastWeek h hn i hi := by
    have h1 : latestEntry (s.calendar.toList.filter fun e => decide (e.minute ≤ s.weekMinute)) = none := by
      unfold latestEntry
      rw [List.filter_filter, List.filter_eq_nil_iff.mpr]
      · rfl
      · intro e he
        obtain ⟨n, hn', rfl⟩ := List.mem_iff_getElem.mp he
        have hn16 : n < 16 := by simpa using hn'
        have := hn ⟨n, hn16⟩
        simp at this ⊢
        exact this
    have h2 := s.latestEntry_winner (fun _ => true) i (by simpa using hi)
    rw [List.filter_true] at h2
    simp [State.evaluatedBand, h, h1, h2]
  empty h hn := by
    have : ∀ test : CalEntry → Bool, latestEntry (s.calendar.toList.filter test) = none := by
      intro test
      unfold latestEntry
      rw [List.filter_filter, List.filter_eq_nil_iff.mpr]
      · rfl
      · intro e he
        obtain ⟨n, hn', rfl⟩ := List.mem_iff_getElem.mp he
        have hn16 : n < 16 := by simpa using hn'
        have := hn ⟨n, hn16⟩
        simp at this ⊢
        simp [this]
    have h2 := this fun _ => true
    rw [List.filter_true] at h2
    simp [State.evaluatedBand, h, this, h2]

/-- The records after the band-changed flags are set (R81). -/
theorem State.flagBandChanged_record (s : State) (x : Circuit) : s.flagBandChanged.record x
    = if (s.record x).state = .answered ∧ circuitKind x ≠ .incoming then { s.record x with bandChanged := true }
      else s.record x := by
  by_cases h1 : (s.records[x.val]).state = .answered <;> by_cases h2 : circuitKind x = .incoming <;>
    simp [State.flagBandChanged, State.record, State.metered, h1, h2]

/-- What a re-evaluation of the band can do (R79 to R81). -/
theorem State.reevaluateBand_spec (s : State) : s.BandReevaluated s.reevaluateBand := by
  have hb : s.reevaluateBand.band = s.evaluatedBand := by
    unfold State.reevaluateBand State.bandChange
    split
    · rename_i h; exact h.symm
    · simp [State.flagBandChanged]
  refine ⟨by rw [hb]; exact s.evaluatedBand_rule, ?_, ?_⟩
  · intro h
    rw [hb] at h
    unfold State.reevaluateBand
    rw [if_pos h]
    exact State.ArbiterOnly.refl s
  · intro h
    rw [hb] at h
    have e : s.reevaluateBand = ({ s with band := s.evaluatedBand }.flagBandChanged).report (.bandChange s.evaluatedBand) := by
      unfold State.reevaluateBand State.bandChange
      rw [if_neg h]
    refine ⟨?_, ?_⟩
    · rw [hb, e]
      unfold State.flagBandChanged State.report
      by_cases hr : s.reports.length < Config.reportQueueCapacity <;> simp [hr, State.ArbiterOnly]
    · intro x
      rw [e, State.record_report, State.flagBandChanged_record]
      rfl

end Sys2Proof.Machine
end

