-- ==== Sys2Proof/WellFormed.lean ====
section
/-!
DEFINITION. Which commands are well formed: the operands that would spell another row of the table are excluded.
Every other bound on an operand is the business of the order's own checks, which answer BAD ARGUMENT (R173).
-/

namespace Sys2Proof

/-- A kind field that names no order: outside 1 to 13 (R148). -/
def badKind (k : BitVec 5) : Bool := k == 0 || 13 < k.toNat

/-- The command belongs to its own row: a BAD_ORDER has a kind outside 1 to 13 (R148); a CLEAR_FAULT does not have
the meter target 2, which is CLEAR_FAULT_METER's (section 11.1). -/
def Instr.wellFormed : Instr → Bool
  | .badOrder _ kind _ _ _ => badKind kind
  | .clearFault _ target _ _ => target != 2
  | .masterReset => true
  | .mrstRelease _ => true
  | .partialReset => true
  | .cycleWhileMrst _ _ _ => true
  | .configurationWord _ _ => true
  | .passedRead _ _ => true
  | .passedWrite _ _ => true
  | .meterWord0Read _ _ => true
  | .guardedWrite _ _ => true
  | .statusRead => true
  | .reportARead => true
  | .readIndexWrite _ => true
  | .argumentWordWrite _ _ _ => true
  | .orderWordWrite _ _ => true
  | .stretchTimerExpiry => true
  | .orderTaken => true
  | .connectLocal _ _ _ => true
  | .connectOutgoing _ _ _ _ => true
  | .connectIncoming _ _ _ => true
  | .release _ _ => true
  | .addCredit _ _ _ => true
  | .setClass _ _ _ => true
  | .setMeter _ _ _ _ => true
  | .setTime _ _ _ => true
  | .loadTariff _ _ _ _ => true
  | .loadCalendar _ _ _ _ => true
  | .setFault _ _ _ _ => true
  | .clearFaultMeter _ _ => true
  | .serviceLink _ _ _ => true
  | .serviceCircuit _ _ _ => true
  | .resultWriteComplete => true
  | .ticketBurstEnd => true
  | .setMeterWriteComplete => true
  | .postingEnd => true
  | .postingParityError => true
  | .postingRecordCorrupt => true
  | .meteringTick => true
  | .graceExpiry _ => true
  | .minuteRollover => true
  | .scan _ => true
  | .fAppears _ => true
  | .fDisappears _ => true
  | .bAppears _ => true
  | .bDisappears _ => true
  | .settleExpiry _ => true
  | .calledClearExpiry _ => true
  | .guardExpiry _ => true
  | .commandSent => true
  | .makeDone _ => true
  | .makeFail _ => true
  | .makeTimeout _ => true
  | .breakDone _ => true
  | .breakFail _ => true
  | .breakTimeout _ => true

end Sys2Proof
end

