-- ==== Sys2Proof/Tests/Slice0.lean ====
section
/-!
SUPPORT. Tests of one step each, whose expected values are those of the spec's worked examples and tables (the section is cited at
each), and for every statement with hypotheses a witness: a concrete state and operands that meet them together.
-/

open Sys2Proof Sys2Proof.Machine

namespace Sys2Proof.Tests

set_option Elab.async false

/-! ## Small states -/

/-- READY under the preset layout, the clock set, every record FREE, every line ORDINARY, nothing waiting. -/
def base : State :=
  { State.reset with
    phase := .ready, txQueue := [], records := Vector.replicate 56 (CallRecord.blank .free),
    lines := Vector.replicate 512 { cls := .ordinary, busy := none, pulses := 0, fault := .none }, timeUnset := false,
    weekMinute := 4890, second := 12 }

/-- The state a command leaves. -/
def after (i : Instr) (s : State) : State :=
  match exec i s with
  | .next t => t
  | .fault _ => s
  | .refused _ => s

/-- `s` with a record replaced. -/
def withRec (s : State) (x : Circuit) (r : CallRecord) : State := s.setRecord x r

/-- `s` with a line of a class. -/
def withClass (s : State) (l : Line) (c : LineClass) : State := s.modifyLine l fun e => { e with cls := c }

/-- `s` with a tariff entry loaded. -/
def withTariff (s : State) (d : DistBand) (b : TimeBand) (interval initial increment : Nat) : State :=
  { s with tariff := s.tariff.set (4 * d.val + b.val) { interval := interval, initial := initial, increment := increment }
             (by omega) }

/-- `s` with an order slot in a state. -/
def withSlot (s : State) (i : OrderSlot) (st : SlotState) : State := s.setSlotState i st

/-- `s` with supervision points of a circuit present or absent. -/
def withPoints (s : State) (x : Circuit) (f b : Bool) : State :=
  (s.setPoint (fPoint x) { present := f, count := none }).setPoint (bPoint x) { present := b, count := none }

/-- The local path of the worked hunt of section 1.6 on cord 5, with given marks. -/
def path5 (m0 m1 m2 m3 : Mark) : Path := [⟨.a 1 5 0, m0⟩, ⟨.b 0 1 1, m1⟩, ⟨.a 9 12 1, m2⟩, ⟨.b 1 9 1, m3⟩]

/-- The record of that call in a state. -/
def call5 (st : CallState) (m0 m1 m2 m3 : Mark) : CallRecord :=
  { CallRecord.blank st with calling := some 37, called := some (.line 300), path := path5 m0 m1 m2 m3, boundSlot := some 3 }

/-- The network of section 1.6 before its hunts. -/
def network16 : State :=
  let s : State := { base with cordPtr := 3, groupPtrs := base.groupPtrs.set 1 6, faults := [.b 8 1 0] }
  withRec ((s.modifyLink (9, 7) fun l => { l with holder := some 13 }).modifyLink (1, 3) fun l => { l with inService := false })
    38 { CallRecord.blank .answered with stamp := some { band := 0, time := some (0, 0) } }

/-- A ring of 16 slots as in section 7.10: W, Rd, full, and held tickets from a number. -/
def ring (w rd : Nat) (full : Bool) (first held : Nat) : State :=
  { base with
    map := { RegionMap.preset with code := 0 }, writeIndex := w, readIndex := rd, ringFull := full,
    holdQueue := (List.range held).map fun i => { seq := first + i, body := composeTicket 33 (CallRecord.blank .free) },
    seqCounter := first + held }

/-- The ticket burst of such a ring, at its end. -/
def burst (s : State) : State := { s with owner := .ticketBurst, burst := .writing }

/-! ## Well-formed commands -/

/-- A BAD_ORDER whose kind names an order is refused: such an order is another row (R148). -/
theorem test_wellFormed_badOrder_kind_13 : (Instr.badOrder 0 13 0 0 0).wellFormed = false := by decide

theorem test_wellFormed_badOrder_kind_1 : (Instr.badOrder 0 1 0 0 0).wellFormed = false := by decide

theorem test_wellFormed_badOrder_kind_14 : (Instr.badOrder 0 14 0 0 0).wellFormed = true ∧ (Instr.badOrder 0 0 0 0 0).wellFormed = true :=
  by decide

/-- CLEAR_FAULT with the meter target is CLEAR_FAULT_METER (section 11.1). -/
theorem test_wellFormed_clearFault_meter : (Instr.clearFault 0 2 0 0).wellFormed = false ∧ (Instr.clearFault 0 1 0 0).wellFormed = true :=
  by decide

/-! ## Resets and configuration -/

/-- Section 12.1: "CLEAR ALL first on the Matrix Port", every record with the 1 s start-up guard. -/
theorem test_masterReset_start_up : (after .masterReset base).txQueue = [.clearAll] ∧
    ((after .masterReset base).record 55).guardTimer = some 4096000 := by decide +kernel

/-- R156: the preset layout at LOADCFG low. -/
theorem test_mrstRelease_preset : (after (.mrstRelease false) .reset).map.meter = 0xF400 ∧
    (after (.mrstRelease false) .reset).threshold = 6 := by decide +kernel

theorem test_mrstRelease_loading : (after (.mrstRelease true) .reset).phase = .loading [] := by decide +kernel

/-- Section 12.5: partial reset keeps every call, and unbinds it. -/
theorem test_partialReset_keeps_calls :
    (after .partialReset (withRec base 5 (call5 .setting .inFlight .unmade .unmade .unmade))).record 5 =
      { call5 .setting .inFlight .unmade .unmade .unmade with boundSlot := none } := by decide +kernel

/-- R162: a cycle while MRST is active. -/
theorem test_cycleWhileMrst_pberr : (after (.cycleWhileMrst true 0xF00F 1) .reset).ends = [.pberr] := by decide +kernel

/-- Section 9.7: the sixth word 0x0053 is code 3, threshold 5. -/
theorem test_configurationWord_sixth :
    let t := after (.configurationWord 0 0x0053) { base with phase := .loading [0x8000, 0x8080, 0x8100, 0x8400, 0x8800] }
    t.phase = .ready ∧ t.map.code = 3 ∧ t.threshold = 5 ∧ t.configFault = false := by decide +kernel

/-- Section 9.7: with 0x8200 for the METER base the preset layout applies, with the config fault. -/
theorem test_configurationWord_invalid :
    let t := after (.configurationWord 0 0x0053) { base with phase := .loading [0x8000, 0x8080, 0x8100, 0x8200, 0x8800] }
    t.map = RegionMap.preset ∧ t.threshold = 6 ∧ t.configFault = true := by decide +kernel

/-! ## Processor cycles -/

/-- R166: a passed read whose data comes with MPERR. -/
theorem test_passedRead_mperr : (after (.passedRead 0x1234 ⟨true, false⟩) base).ends = [.pberr] ∧
    (after (.passedRead 0x1234 ⟨true, false⟩) base).memoryError = true := by decide +kernel

/-- Section 11.7: word 0 of the call view of an ANSWERED outgoing coin call with grace running, band at answer 1. -/
theorem test_passedRead_calls_view :
    (after (.passedRead (0xF100 + 104) ⟨false, false⟩) (withRec base 26
      { CallRecord.blank .answered with
        coin := true, ticket := true, grace := some 28, stamp := some { band := 1, time := some (0, 0) } })).ends =
      [.prdyWord 0x12D6] := by decide +kernel

/-- R159: a write in no region reaches memory. -/
theorem test_passedWrite_reaches_memory : (after (.passedWrite 0x1234 ⟨7, false⟩) base).mem = [(0x1234, 7)] := by decide +kernel

/-- Section 5.9, step 1: the read pair of line 300 opens on 5,210. -/
theorem test_meterWord0Read_opens_pair :
    let t := after (.meterWord0Read 300 ⟨false, false⟩) (base.writeMem 0xF658 5210)
    t.readPair = some 300 ∧ t.ends = [.prdyWord 5210] := by decide +kernel

/-- R161: a write to METER is guarded. -/
theorem test_guardedWrite_meter : (after (.guardedWrite 0xF401 1) base).ends = [.pberr] ∧
    (after (.guardedWrite 0xF401 1) base).mem = [] := by decide +kernel

/-- Section 11.6: ready and time unset stand in bits 0 and 7 after a release of MRST. -/
theorem test_statusRead_start : (after .statusRead (after (.mrstRelease false) .reset)).ends = [.prdyWord 0x0081] := by
  decide +kernel

/-- Section 10.7, step 5: reports lost is shown and cleared. -/
theorem test_statusRead_clears : (after .statusRead { base with reportsLost := true }).reportsLost = false := by decide +kernel

/-- Section 11.5: CLEAR 5 is kind 2, subject 5. -/
theorem test_reportARead_clear5 : (after .reportARead { base with reports := [.clear 5 .callerClear] }).ends = [.prdyWord 0x2005] := by
  decide +kernel

/-- Section 10.7, step 8: NONE. -/
theorem test_reportARead_none : (after .reportARead { base with latch := some (.seize 50) }).ends = [.prdyWord 0] := by decide +kernel

/-- Section 7.10, step 6: 9 written at Rd 5, W 5, full. -/
theorem test_readIndexWrite_consumes :
    let t := after (.readIndexWrite ⟨9, false⟩) (ring 5 5 true 212 8)
    t.readIndex = 9 ∧ t.ringFull = false := by decide +kernel

/-- Section 7.10, step 9: a = 15, more than 14. -/
theorem test_readIndexWrite_error :
    let t := after (.readIndexWrite ⟨8, false⟩) (ring 7 9 false 214 7)
    t.readIndex = 9 ∧ t.reports = [.ticketIndexError 8] := by decide +kernel

/-- R143: captured at an IDLE slot, and not at a busy one. -/
theorem test_argumentWordWrite_captured : ((after (.argumentWordWrite 3 1 ⟨300, false⟩) base).slot 3).w1 = 300 := by decide +kernel

theorem test_argumentWordWrite_busy : ((after (.argumentWordWrite 3 1 ⟨300, false⟩) (withSlot base 3 .queued)).slot 3).w1 = 0 := by decide +kernel

/-- R144: an order word to a busy slot. -/
theorem test_orderWordWrite_busy : (after (.orderWordWrite 3 ⟨1, false⟩) (withSlot base 3 .inFlight)).ends = [.pberr] := by decide +kernel

/-- R144: an order word to an IDLE slot goes to memory; no order is taken before the write completes. -/
theorem test_orderWordWrite_under_way : (after (.orderWordWrite 3 ⟨1, false⟩) base).owner = .processor ∧
    (after (.orderWordWrite 3 ⟨1, false⟩) base).orderQueue = [] := by decide +kernel

/-- R146: the stretch timer runs out. -/
theorem test_stretchTimerExpiry_refuses :
    let t := after .stretchTimerExpiry { base with stretch := .held 0, cycles := [.write 0xF04B 1] }
    t.ends = [.pberr] ∧ t.guardedWrite = true := by decide +kernel

/-- Section 8.7, step 1: the sixth order enters the queue, and orders almost full is set at threshold 6. -/
theorem test_orderTaken_almost_full :
    let t := after .orderTaken
      { base with
        owner := .processor, cycles := [.write 0xF03F 1], dispatcher := .waiting 9,
        orderQueue := List.replicate 5 { slot := 10, kind := 1, w0 := 0, w1 := 0, w2 := 0 } }
    t.orderQueue.length = 6 ∧ t.ordersAlmostFull = true := by decide +kernel

/-! ## Orders -/

/-- R148: a kind outside 1 to 13. -/
theorem test_badOrder_kind_14 : (after (.badOrder 3 14 0 0 0) base).results = [⟨3, .badOrder, none⟩] := by decide +kernel

/-- Section 1.6: the local hunt from cord 3 chooses cord 5, and links (1, 0) and (9, 1) have holder 5. -/
theorem test_connectLocal_hunt_1_6 :
    let t := after (.connectLocal 3 37 300) network16
    t.cordPtr = 6 ∧ (t.link (1, 0)).holder = some 5 ∧ (t.link (9, 1)).holder = some 5 ∧ (t.line 300).busy = some 5 := by decide +kernel

/-- Section 1.6: its path, in make order; section 3.9 (time 0): the first MAKE is issued at the grant. -/
theorem test_connectLocal_path_1_6 :
    let t := after (.connectLocal 3 37 300) network16
    (t.record 5).path = path5 .inFlight .unmade .unmade .unmade ∧ t.txQueue = [.makeCmd 5 (.a 1 5 0)] := by decide +kernel

/-- Section 1.6: the outgoing hunt on group 1 chooses junction 8, circuit 32, and the pointer becomes 1. -/
theorem test_connectOutgoing_hunt_1_6 :
    let t := after (.connectOutgoing 3 37 1 3) network16
    t.groupPtrs[1] = 1 ∧ (t.link (1, 6)).holder = some 32 ∧ (t.record 32).called = some (.junction 8) := by decide +kernel

/-- Section 1.6: the incoming circuit 50 to line 300. -/
theorem test_connectIncoming_1_6 :
    let t := after (.connectIncoming 3 50 300) (withRec network16 50 (CallRecord.blank .seized))
    ((t.record 50).path.map fun q => q.xp) = [.b 4 9 7, .a 9 12 4] ∧ (t.link (9, 4)).holder = some 50 := by decide +kernel

/-- Section 2.11: a CONNECT INCOMING after the abandon. -/
theorem test_connectIncoming_abandoned : (after (.connectIncoming 3 50 300) base).results = [⟨3, .notActive, some 50⟩] := by
  decide +kernel

/-- Section 3.9: RELEASE 33 in the wait list. -/
theorem test_release_reserved :
    let t := after (.release 4 33) (withRec { base with waitList := [5, 33, 12] } 33
      { CallRecord.blank .reserved with boundSlot := some 7 })
    t.waitList = [5, 12] ∧ (t.record 33).state = .free ∧ t.results = [⟨7, .released, some 33⟩, ⟨4, .done, some 33⟩] := by decide +kernel

/-- Section 3.9: a release while a MAKE is on the wire waits. -/
theorem test_release_on_wire :
    let t := after (.release 4 5) (withRec base 5 (call5 .setting .made .inFlight .unmade .unmade))
    (t.record 5).releasePending = true ∧ t.results = [⟨4, .done, some 5⟩] := by decide +kernel

/-- Section 6.7, after tick 230: owed 1, credit 0, paid 3, n = 5. -/
theorem test_addCredit_settles :
    let t := after (.addCredit 3 26 5) (withRec base 26
      { CallRecord.blank .answered with coin := true, calling := some 140, owed := 1, paid := 3, grace := some 15 })
    (t.record 26).credit = 4 ∧ (t.record 26).paid = 4 ∧ (t.record 26).grace = none ∧ (t.line 140).pulses = 1 := by decide +kernel

/-- Section 6.7: a clamped addition. -/
theorem test_addCredit_clamped :
    let t := after (.addCredit 3 12 10) (withRec base 12
      { CallRecord.blank .answered with coin := true, calling := some 140, credit := 250 })
    (t.record 12).credit = 255 ∧ t.results = [⟨3, .clamped, some 12⟩] := by decide +kernel

/-- Section 11.1: class 3 is COIN. -/
theorem test_setClass_coin : ((after (.setClass 3 140 3) base).line 140).cls = .coin := by decide +kernel

/-- R27: a busy line. -/
theorem test_setClass_busy : (after (.setClass 3 140 3) (base.setBusy (some 140) (some 5))).results = [⟨3, .lineBusy, none⟩] := by
  decide +kernel

/-- R107: 999,999 is low 16,959, high 15; one more is refused. -/
theorem test_setMeter_largest : (after (.setMeter 3 37 16959 15) (withClass base 37 .spare)).setMeterJob = some ⟨3, 37, 999999⟩ := by
  decide +kernel

theorem test_setMeter_too_large : (after (.setMeter 3 37 16960 15) (withClass base 37 .spare)).results = [⟨3, .badArgument, none⟩] := by
  decide +kernel

/-- Section 4.7: SET TIME 4,750, 0 with entry 6 (4,740, band 2) and entry 5 (3,960, band 0) brings band 2 into force. -/
theorem test_setTime_band :
    let t := after (.setTime 3 4750 0) { base with
      timeUnset := true, calendar := (base.calendar.set 5 ⟨true, 3960, 0⟩).set 6 ⟨true, 4740, 2⟩ }
    t.band = 2 ∧ t.timeUnset = false ∧ t.reports = [.bandChange 2] := by decide +kernel

/-- Section 4.7: interval 72 gives the increment 910. -/
theorem test_loadTariff_day : (after (.loadTariff 3 3 0x0011 72) base).tariffEntry 3 1 = ⟨72, 1, 910⟩ := by decide +kernel

/-- Section 4.7: interval 60 gives 1,092. -/
theorem test_loadTariff_market : ((after (.loadTariff 3 3 0x0012 60) base).tariffEntry 3 2).increment = 1092 := by decide +kernel

/-- Section 4.7: entry 11 with the minute of entry 9 and band 2, loaded on Friday at 09:00. -/
theorem test_loadCalendar_same_minute :
    (after (.loadCalendar 3 11 6240 2) { base with
      weekMinute := 6300, band := 1, calendar := base.calendar.set 9 ⟨true, 6240, 1⟩ }).band = 2 := by decide +kernel

/-- R173: a stage A coordinate word of 0x0120 is refused. -/
theorem test_setFault_refused : (after (.setFault 3 0 0x0120 0) base).results = [⟨3, .badArgument, none⟩] := by decide +kernel

/-- Section 11.1: stage B, word 1 = (k, g), word 2 = j. -/
theorem test_setFault_stage_b : (after (.setFault 3 1 0x0801 0) base).faults = [.b 8 1 0] := by decide +kernel

/-- R14. -/
theorem test_clearFault_removes : (after (.clearFault 3 1 0x0801 0) { base with faults := [.b 8 1 0, .b 0 1 1] }).faults = [.b 0 1 1] := by
  decide +kernel

/-- Section 5.9: CLEAR FAULT with the meter target for line 37. -/
theorem test_clearFaultMeter_37 :
    ((after (.clearFaultMeter 3 37) (base.modifyLine 37 fun e => { e with fault := .parity })).line 37).fault = .none := by decide +kernel

/-- Section 3.9: a SERVICE order returns link (1, 4). -/
theorem test_serviceLink_returns :
    ((after (.serviceLink 3 1 0x8004) (base.modifyLink (1, 4) fun l => { l with inService := false })).link (1, 4)).inService = true := by
  decide +kernel

/-- Section 11.1: direction 0 is out of service. -/
theorem test_serviceCircuit_out : (after (.serviceCircuit 3 50 0) base).circuitInService[50] = false := by decide +kernel

/-! ## Ends of sequences -/

/-- Section 12.6: 0x8805 is CONNECTED with circuit 5, written to word 3 of slot 3. -/
theorem test_resultWriteComplete_connected :
    let t := after .resultWriteComplete { base with owner := .resultWrite, results := [⟨3, .connected, some 5⟩] }
    t.mem = [(0xF00F, 0x8805)] ∧ (t.slot 3).state = .idle := by decide +kernel

/-- Section 12.6: the eight words of ticket 512. -/
theorem test_ticketBurstEnd_words_12_6 :
    let r : CallRecord := { CallRecord.blank .clearing with
      calling := some 37, called := some (.line 300), detailed := true, ticket := true, cause := some .callerClear,
      stamp := some { band := 2, time := some (4890, 12) }, duration := 1874, paid := 4 }
    (after .ticketBurstEnd { base with
      owner := .ticketBurst, burst := .writing, holdQueue := [{ seq := 512, body := composeTicket 5 r }] }).mem =
      [(0xE000, 512), (0xE001, 5), (0xE002, 0x0680), (0xE003, 37), (0xE004, 12588), (0xE005, 4890), (0xE006, 187), (0xE007, 4)] := by
  decide +kernel

/-- Section 7.10, step 2: the burst to slot 4 ends, W equals Rd. -/
theorem test_ticketBurstEnd_full :
    let t := after .ticketBurstEnd (burst (ring 4 5 false 211 5))
    t.writeIndex = 5 ∧ t.ringFull = true ∧ t.holdQueue.length = 4 := by decide +kernel

/-- R96, section 11.3: 999,999 is held as 16,959 and high part 15. -/
theorem test_setMeterWriteComplete_largest :
    (after .setMeterWriteComplete { base with owner := .setMeter, setMeterJob := some ⟨3, 37, 999999⟩ }).mem =
      [(0xF44A, 16959), (0xF44B, 15)] := by decide +kernel

/-- Section 5.9: 999,998 with wrap count 3 and p = 4 becomes 2 with wrap count 4. -/
theorem test_postingEnd_wraps :
    let s := (base.modifyLine 37 fun e => { e with pulses := 4 }).writeMem 0xF44A 16958 |>.writeMem 0xF44B 0x030F
    let t := after .postingEnd { s with owner := .posting ⟨37, 4, .first⟩ }
    t.mem = [(0xF44A, 2), (0xF44B, 0x0400)] ∧ (t.line 37).pulses = 0 := by decide +kernel

/-- Section 5.9, steps 8 and 9: a first parity error leaves the retry line, which is granted next with the pointer kept. -/
theorem test_postingParityError_retry :
    let s := base.modifyLine 300 fun e => { e with pulses := 3 }
    let t := after .postingParityError { s with owner := .posting ⟨300, 3, .first⟩, postPointer := 301 }
    t.owner = .posting ⟨300, 3, .retry⟩ ∧ t.postPointer = 301 ∧ t.reports = [] := by decide +kernel

/-- Section 5.9: a retry's parity error is meter fault PARITY with report METER FAULT, the pending count kept. -/
theorem test_postingParityError_fault :
    let s := base.modifyLine 300 fun e => { e with pulses := 3 }
    let t := after .postingParityError { s with owner := .posting ⟨300, 3, .retry⟩ }
    t.line 300 = ⟨.ordinary, none, 3, .parity⟩ ∧ t.reports = [.meterFault 300 .parity] := by decide +kernel

/-- R96, R103: a record with an unused bit set is corrupt. -/
theorem test_postingRecordCorrupt_unused_bit :
    let t := after .postingRecordCorrupt { base.writeMem 0xF44B 0x0010 with owner := .posting ⟨37, 1, .first⟩ }
    (t.line 37).fault = .corrupt ∧ t.reports = [.meterFault 37 .corrupt] := by decide +kernel

/-! ## Time -/

/-- Section 5.9, tick 73: 65,520 + 910 = 66,430, less 65,536. -/
theorem test_meteringTick_pulse :
    let s := withRec (withTariff { base with band := 1 } 3 1 72 1 910) 32
      { CallRecord.blank .answered with calling := some 37, distBand := 3, acc := 65520, paid := 1, duration := 72 }
    let t := after .meteringTick s
    (t.record 32).acc = 894 ∧ (t.record 32).paid = 2 ∧ (t.line 37).pulses = 1 := by decide +kernel

/-- Section 6.7, tick 145: the credit reaches 0 and grace is started. -/
theorem test_meteringTick_coin :
    let s := withRec (withTariff { base with band := 1 } 3 1 72 1 910) 26
      { CallRecord.blank .answered with calling := some 140, distBand := 3, coin := true, acc := 65504, paid := 2, credit := 1 }
    let t := after .meteringTick s
    (t.record 26).credit = 0 ∧ (t.record 26).grace = some 100 ∧ t.txQueue = [.payTone 26] ∧ t.reports = [.payTone 26 0] := by
  decide +kernel

/-- Section 6.7: grace expires with cause CREDIT. -/
theorem test_graceExpiry_credit :
    (after (.graceExpiry 5) (withRec base 5 { call5 .answered .made .made .made .made with coin := true, grace := some 1 })).reports =
      [.clear 5 .credit] := by decide +kernel

/-- Section 4.7: the rollover from 4,739 to 4,740 changes the band from 0 to 2. -/
theorem test_minuteRollover_market :
    let t := after .minuteRollover { base with
      weekMinute := 4739, second := 59, calendar := (base.calendar.set 5 ⟨true, 3960, 0⟩).set 6 ⟨true, 4740, 2⟩ }
    t.weekMinute = 4740 ∧ t.band = 2 ∧ t.reports = [.bandChange 2] := by decide +kernel

/-- R74: the week ends at minute 10,079. -/
theorem test_minuteRollover_week : (after .minuteRollover { base with weekMinute := 10079 }).weekMinute = 0 := by decide +kernel

/-! ## Supervision -/

/-- Section 2.11, time 250: the B count of circuit 5 (point 11) reaches 10 and B appears. -/
theorem test_scan_b_appears :
    let s := (withPoints (withRec base 5 (call5 .ringing .made .made .made .made)) 5 true false).setPoint 11
      { present := false, count := some 9 }
    ((after (.scan 0xC00) s).record 5).state = .answered := by decide +kernel

/-- Section 2.11, time 70: chatter makes the count absent. -/
theorem test_scan_chatter :
    (after (.scan 0) (base.setPoint 11 { present := false, count := some 4 })).points[11] = ⟨false, none⟩ := by decide +kernel

/-- Section 2.11: F appearing seizes incoming circuit 50. -/
theorem test_fAppears_seizes : (after (.fAppears 50) base).reports = [.seize 50] := by decide +kernel

/-- Section 2.11: F disappearing abandons it. -/
theorem test_fDisappears_abandons : (after (.fDisappears 50) (withRec base 50 (CallRecord.blank .seized))).reports = [.abandon 50] := by
  decide +kernel

/-- Section 2.11, time 90,250: F disappears from an answered call. -/
theorem test_fDisappears_clears :
    (after (.fDisappears 5) (withRec base 5 (call5 .answered .made .made .made .made))).reports = [.clear 5 .callerClear] := by
  decide +kernel

/-- Section 12.6: B appears in band 2, minute 4,890, second 12, with 1 initial pulse. -/
theorem test_bAppears_answers :
    let s := withRec (withTariff { base with band := 2 } 0 2 600 1 109) 5 (call5 .ringing .made .made .made .made)
    let t := after (.bAppears 5) s
    (t.record 5).stamp = some ⟨2, some (4890, 12)⟩ ∧ (t.record 5).paid = 1 ∧ t.reports = [.answer 5 2] := by decide +kernel

/-- Section 6.7, answered with no credit: initial pulses 2 leave owed 2 and grace at 100, PAY TONE (1) behind ANSWER. -/
theorem test_bAppears_no_credit :
    let s := withRec (withTariff { base with band := 1 } 3 1 72 2 910) 30
      { CallRecord.blank .ringing with calling := some 140, distBand := 3, coin := true }
    let t := after (.bAppears 30) s
    (t.record 30).owed = 2 ∧ (t.record 30).grace = some 100 ∧ t.reports = [.answer 30 1, .payTone 30 1] := by decide +kernel

/-- Section 2.11, time 40,250: 60 s for a cord. -/
theorem test_bDisappears_cord :
    ((after (.bDisappears 5) (withRec base 5 (call5 .answered .made .made .made .made))).record 5).calledClear = some 245760000 := by
  decide +kernel

/-- R45: 2 s for an outgoing junction. -/
theorem test_bDisappears_junction :
    ((after (.bDisappears 32) (withRec base 32 (CallRecord.blank .answered))).record 32).calledClear = some 8192000 := by decide +kernel

/-- Section 2.11, step 6: F absent at the settle expiry. -/
theorem test_settleExpiry_caller_gone :
    (after (.settleExpiry 5) (withRec base 5 { call5 .ringing .made .made .made .made with settle := some 0 })).reports =
      [.clear 5 .callerClear] := by decide +kernel

/-- Section 2.11, time 200: F present and B filtered absent, no timer runs. -/
theorem test_settleExpiry_waits :
    let r := (after (.settleExpiry 5)
      (withPoints (withRec base 5 { call5 .ringing .made .made .made .made with settle := some 0 }) 5 true false)).record 5
    r.state = .ringing ∧ r.settle = none := by decide +kernel

/-- R46. -/
theorem test_calledClearExpiry_clears :
    (after (.calledClearExpiry 5) (withRec base 5 { call5 .answered .made .made .made .made with calledClear := some 0 })).reports =
      [.clear 5 .calledClear] := by decide +kernel

/-- Section 2.11, after step 8: seized again during the guard. -/
theorem test_guardExpiry_seized_again :
    (after (.guardExpiry 50) (withPoints (withRec base 50 { CallRecord.blank .guarded with guardTimer := some 0 }) 50 true false)).reports =
      [.seize 50] := by decide +kernel

/-! ## The Matrix Port -/

/-- Section 3.9, times 1 and 81: the response timer of 80 ms. -/
theorem test_commandSent_starts_timer :
    (after .commandSent { base with onWire := some (.makeCmd 5 (.a 1 5 0)) }).outstanding = [⟨.makeJob, .a 1 5 0, 5, 327680⟩] := by
  decide +kernel

/-- Section 11.8: the word of MAKE A(1, 5, 0), and of BREAK B(4, 1, 6). -/
theorem test_command_words : (PortCommand.makeCmd 5 (.a 1 5 0)).word = 0x0250 ∧ (PortCommand.breakCmd 40 (.b 4 1 6)).word = 0x6416 := by
  decide +kernel

/-- R174: start bit, 0x0250 from bit 0, odd parity over its three ones, stop bit; MXO idles high. -/
theorem test_frame : (frameBits 0x0250).map Bool.toNat = [0, 0, 0, 0, 0, 1, 0, 1, 0, 0, 1, 0, 0, 0, 0, 0, 0, 0, 1] ∧
    base.mxoLevel = true := by decide +kernel

/-- R175: the groups on SCS over a round of 280 us that begins at the release of MRST, and 13 between rounds. -/
theorem test_scanSelect : State.reset.scanSelect = 0 ∧ base.scanSelect = 0 ∧ { base with scanDivider := 39813 + 82 }.scanSelect = 1 ∧
    { base with scanDivider := 40959 }.scanSelect = 13 ∧ { base with scanDivider := 0 }.scanSelect = 13 ∧
    { base with scanDivider := 39812 }.scanSelect = 13 := by decide +kernel

/-- R39, R175: a point present when scanning starts is first seen at the end of the round, 280 us after the release of MRST. -/
theorem test_step_samples_at_round_end :
    (match step { base with scanPins := 1, scanDivider := 40959 } with
      | .next t => t.points[(0 : Point)]
      | .fault _ => ⟨true, none⟩
      | .refused _ => ⟨true, none⟩) = ⟨false, some 0⟩ := by decide +kernel

/-- Section 3.9, time 31: DONE of A(1, 5, 0), whose word 0x0250 has three ones. -/
theorem test_makeDone_continues :
    let s := withRec { base with outstanding := [⟨.makeJob, .a 1 5 0, 5, 9⟩] } 5 (call5 .setting .inFlight .unmade .unmade .unmade)
    (after (.makeDone ⟨0x0250, false, true⟩) s).txQueue = [.makeCmd 5 (.b 0 1 1)] := by decide +kernel

/-- Section 3.9, time 181: the last DONE. -/
theorem test_makeDone_connects :
    let s := withRec { base with outstanding := [⟨.makeJob, .b 1 9 1, 5, 9⟩] } 5 (call5 .setting .made .made .made .inFlight)
    let t := after (.makeDone (boardResponse false false (.b 1 9 1))) s
    (t.record 5).settle = some 819200 ∧ t.results = [⟨3, .connected, some 5⟩] := by decide +kernel

/-- Section 3.9, time 58: FAIL of B(0, 1, 1) re-hunts to cord 6 and issues BREAK A(1, 5, 0), MAKE A(1, 5, 2). -/
theorem test_makeFail_rehunts :
    let s := withRec { network16 with cordPtr := 6, outstanding := [⟨.makeJob, .b 0 1 1, 5, 9⟩] } 5
      (call5 .setting .made .inFlight .unmade .unmade)
    let t := after (.makeFail (boardResponse true false (.b 0 1 1))) s
    t.cordPtr = 7 ∧ t.txQueue = [.breakCmd 5 (.a 1 5 0), .makeCmd 6 (.a 1 5 2)] ∧
      t.reports = [.crosspointFault (.b 0 1 1) .fail, .clear 5 .pathFault] ∧ (t.line 37).busy = some 6 := by decide +kernel

/-- Section 3.9, time 81: the second attempt times out with the table full: link (1, 4) goes out of service. -/
theorem test_makeTimeout_table_full :
    let s := withRec
      { base with
        faults := (List.finRange 32).map fun p => .a 0 p 0, outstanding := [⟨.makeJob, .b 4 1 6, 40, 0⟩] } 40
      { CallRecord.blank .setting with
        calling := some 37, called := some (.junction 16), rehuntUsed := true, boundSlot := some 3,
        path := [⟨.a 1 5 4, .made⟩, ⟨.b 4 1 6, .inFlight⟩] }
    let t := after (.makeTimeout (.b 4 1 6)) s
    (t.link (1, 4)).inService = false ∧ t.reports = [.linkOut 1 4, .clear 40 .pathFault] ∧
      t.txQueue = [.breakCmd 40 (.b 4 1 6)] ∧ t.results = [⟨3, .pathFault, some 40⟩] := by decide +kernel

/-- Section 3.9, time 110: BREAK A(1, 5, 4) follows DONE of B(4, 1, 6). -/
theorem test_breakDone_next :
    let s := withRec { base with outstanding := [⟨.breakJob, .b 4 1 6, 40, 9⟩] } 40
      { CallRecord.blank .clearing with path := [⟨.a 1 5 4, .made⟩, ⟨.b 4 1 6, .inFlight⟩] }
    (after (.breakDone (boardResponse false true (.b 4 1 6))) s).txQueue = [.breakCmd 40 (.a 1 5 4)] := by decide +kernel

/-- Section 3.9, time 85: the break job is complete, GUARD for 300 ms. -/
theorem test_breakDone_last :
    let s := withRec { base with outstanding := [⟨.breakJob, .a 1 5 0, 5, 9⟩] } 5 (call5 .clearing .inFlight .unmade .unmade .unmade)
    (after (.breakDone (boardResponse false true (.a 1 5 0))) s).record 5 =
      { CallRecord.blank .guarded with guardTimer := some 1228800 } := by decide +kernel

/-- R65: a BREAK answered FAIL takes the link out of service. -/
theorem test_breakFail_link_out :
    let s := withRec { base with outstanding := [⟨.breakJob, .a 1 5 0, 5, 9⟩] } 5 (call5 .clearing .inFlight .unmade .unmade .unmade)
    let t := after (.breakFail (boardResponse true true (.a 1 5 0))) s
    (t.link (1, 0)).inService = false ∧ t.reports = [.crosspointFault (.a 1 5 0) .breakTimeout, .linkOut 1 0] := by decide +kernel

/-- R65: a BREAK that times out. -/
theorem test_breakTimeout_link_out :
    let s := withRec { base with outstanding := [⟨.breakJob, .b 0 1 1, 5, 0⟩] } 5 (call5 .clearing .made .inFlight .unmade .unmade)
    let t := after (.breakTimeout (.b 0 1 1)) s
    (t.link (1, 0)).inService = false ∧ t.faults = [.b 0 1 1] ∧ t.txQueue = [.breakCmd 5 (.a 1 5 0)] := by decide +kernel

/-! ## The clock and the step -/

/-- R22: the start-up guard counts from the release of MRST, one CLK period a step (assumption log 11). -/
theorem test_step_counts_guard :
    (match step (after (.mrstRelease false) .reset) with
      | .next t => (t.record 0).guardTimer
      | .fault _ => none
      | .refused _ => none) = some 4095999 := by decide +kernel

/-- R103, R165: a posting of a corrupt record ends after its second read, four CLK periods after its grant. -/
theorem test_step_corrupt_posting_ends :
    (match step { base.writeMem 0xF7FF 0x0010 with owner := .posting ⟨511, 1, .first⟩, accessLeft := 5 } with
      | .next t => ((t.line 511).fault, t.owner)
      | .fault _ => (.none, .processor)
      | .refused _ => (.none, .processor)) = (.corrupt, .none) := by decide +kernel

/-- R162, section 9.7: P0 waits for a sequence, owns the port from its grant, and ends with its word when its access is over. -/
theorem test_waiting_read_owns_port :
    let s := after .resultWriteComplete
      { base with mem := [(5, 9)], owner := .resultWrite, results := [⟨31, .done, none⟩], cycles := [.read 5 false] }
    (s.owner, s.accessLeft, s.ends) = (.passed, 2, []) ∧
    (match step { s with accessLeft := 1 } with
      | .next t => (t.owner, t.ends, t.cycles)
      | .fault _ => (.passed, [], [])
      | .refused _ => (.passed, [], [])) = (.none, [.prdyWord 9], []) := by decide +kernel

/-- Section 9.7: P0 ends and P1 waits; the processor is granted again. -/
theorem test_next_strobe_ends_passed_read :
    (after (.passedWrite 6 ⟨7, false⟩) { base with mem := [(5, 9)], owner := .passed, accessLeft := 2, cycles := [.read 5 false] }).ends =
      [.prdyWord 9, .prdy] := by decide +kernel

/-- Section 9.7: P0 owns the port while the posting of line 140 waits; P1 is granted at counts 0 to 7, and waits at 8. -/
theorem test_fairness_bound :
    let s : Nat → State := fun n =>
      { base.modifyLine 140 fun e => { e with pulses := 1 } with
        meterRequest := true, grantCount := n, owner := .passed, accessLeft := 2, cycles := [.read 5 false] }
    let t := after (.passedWrite 6 ⟨7, true⟩) (s 7)
    let u := after (.passedWrite 6 ⟨7, true⟩) (s 8)
    (t.owner, t.grantCount, t.ends, t.mem) = (.passed, 8, [.prdyWord 0], []) ∧
    (u.owner, u.grantCount, u.cycles) = (.posting ⟨140, 1, .first⟩, 0, [.write 6 7]) := by decide +kernel

/-- R106: the pair of a word-0 read that waited opens with its grant, before its end. -/
theorem test_pair_opens_at_grant :
    let t := after .resultWriteComplete
      { base with owner := .resultWrite, results := [⟨31, .done, none⟩], cycles := [.read 0xF658 false] }
    (t.owner, t.readPair, t.ends) = (.passed, some 300, []) := by decide +kernel

/-- R145: the slot of the order write under way is kept for it. -/
theorem test_slot_kept_for_order_write :
    let t := after (.release 31 5) { base with owner := .processor, accessLeft := 2, cycles := [.write 0xF07F 1] }
    t.orderQueue = [] ∧ t.results = [] ∧ (t.slot 31).state = .idle := by decide +kernel

/-- The table gives no bits: no word spells a command. -/
theorem test_decodeTableWord_none : decodeTableWord 0 0 = none ∧ decodeTableWord 16 0xFFFF = none := by decide

/-! ## Witnesses: the machine and its invariants -/

/-- The store, cells and maps at their edges: TICKET to the last word, threshold 8. -/
def edgeMap : RegionMap := { order := 0, cells := 0x80, calls := 0x100, meter := 0x400, ticket := 0xF000, code := 5 }

/-- A state in which every queue is full. -/
def fullQueues : State :=
  { ring 5 5 true 212 8 with
    reports := List.replicate 32 (.seize 50), orderQueue := List.replicate 8 { slot := 10, kind := 1, w0 := 0, w1 := 0, w2 := 0 },
    closingWaiters := [(33, composeTicket 33 (CallRecord.blank .closing))], faults := (List.finRange 32).map fun p => .a 0 p 0,
    grantCount := 8, pending := [.ticketBurstEnd] }

/-- A state in which every count is at its largest value. -/
def fullCounts : State :=
  { base with
    records := Vector.replicate 56
      { CallRecord.blank .answered with
        acc := 65535, paid := 65535, owed := 127, credit := 255, duration := 16777215, grace := some 100 },
    lines := Vector.replicate 512 { cls := .coin, busy := none, pulses := 65535, fault := .none },
    weekMinute := 10079, second := 59, tenths := 9, calendar := Vector.replicate 16 ⟨true, 10079, 3⟩,
    tariff := Vector.replicate 32 ⟨6000, 3, 11⟩, seqCounter := 65535, pending := [.meteringTick] }

/-- A state one period before each timer and divider falls due. -/
def quiet : State :=
  withRec { base with
    scanDivider := 40958, tickDivider := 409598, outstanding := [⟨.makeJob, .a 1 5 0, 5, 2⟩] } 50
    { CallRecord.blank .guarded with guardTimer := some 2 }

theorem witness_QuietPeriodCountsTimers_held : ∃ s : State, s.pending = [] ∧ s.phase = .held := ⟨.reset, rfl, rfl⟩

theorem witness_QuietPeriodCountsTimers : ∃ s : State, s.pending = [] ∧ s.phase ≠ .held ∧ s.cycles = [] ∧ s.owner = .none ∧
    s.stretch = .none ∧ s.onWire = none ∧ s.wireLeft = 0 ∧ s.accessLeft = 0 ∧ s.txQueue = [] ∧ (∀ o ∈ s.outstanding, 1 < o.left) ∧
    (∀ x : Circuit, (s.record x).settle ≠ some 0 ∧ (s.record x).settle ≠ some 1
      ∧ (s.record x).guardTimer ≠ some 0 ∧ (s.record x).guardTimer ≠ some 1
      ∧ (s.record x).calledClear ≠ some 0 ∧ (s.record x).calledClear ≠ some 1) ∧
    s.scanDivider + 1 < 40960 ∧ s.tickDivider + 1 < 409600 := ⟨quiet, by decide +kernel⟩

/-- A condition on every record's timers that meets RecordQuiet and can be decided. -/
theorem recordQuiet_of (s : State) (x : Circuit)
    (h : (((s.record x).settle.all fun n => decide (1 < n)) && ((s.record x).guardTimer.all fun n => decide (1 < n))
      && ((s.record x).calledClear.all fun n => decide (1 < n))) = true) : s.RecordQuiet x := by
  simp only [Bool.and_eq_true, Option.all_eq_true, decide_eq_true_eq] at h
  exact ⟨h.1.1, h.1.2, h.2⟩

/-- The other timers of a state whose records are FREE run on. -/
def Free (s : State) : Prop := s.stretch = .none ∧ s.onWire = none ∧ s.bitClock = 0 ∧ s.outstanding = [] ∧
  s.records = Vector.replicate 56 (CallRecord.blank .free) ∧ s.scanDivider + 1 < 40960 ∧ s.tickDivider + 1 < 409600

theorem Free.quiet {s : State} (h : Free s) :
    s.stretch = .none ∧ s.WireQuiet ∧ s.ResponsesQuiet ∧ (∀ x, s.RecordQuiet x) ∧ s.DividersQuiet := by
  obtain ⟨h1, h2, h3, h4, h5, h6⟩ := h
  refine ⟨h1, ⟨fun h => absurd h2 h, fun _ => by omega⟩, by intro o ho; simp [h4] at ho, fun x => recordQuiet_of s x ?_, h6⟩
  simp [State.record, h5, CallRecord.blank]

/-- Each owner of the port one CLK period before its end, with the command that is its end event. -/
def ownersAtEnd : List (State × Instr) :=
  [({ base with owner := .resultWrite, results := [⟨31, .done, none⟩], accessLeft := 1 }, .resultWriteComplete),
   ({ burst (ring 15 0 false 212 8) with accessLeft := 1 }, .ticketBurstEnd),
   ({ base with owner := .setMeter, setMeterJob := some ⟨31, 511, 999999⟩, accessLeft := 1 }, .setMeterWriteComplete),
   ({ base with owner := .processor, cycles := [.write 0xF07F 1], accessLeft := 1 }, .orderTaken),
   ({ base with owner := .posting ⟨511, 1, .first⟩, accessLeft := 1 }, .postingEnd),
   ({ base.writeMem 0xF7FF 0x0010 with owner := .posting ⟨511, 1, .first⟩, accessLeft := 5 }, .postingRecordCorrupt)]

theorem ownersAtEnd_endsBy : ∀ e ∈ ownersAtEnd, e.1.phase ≠ .held ∧ e.1.EndsBy e.2 := by
  simp only [ownersAtEnd, List.forall_mem_cons]
  exact ⟨⟨by decide, .inr ⟨rfl, .inl ⟨rfl, rfl⟩⟩⟩, ⟨by decide, .inr ⟨rfl, .inr (.inl ⟨rfl, rfl⟩)⟩⟩,
    ⟨by decide, .inr ⟨rfl, .inr (.inr (.inl ⟨rfl, rfl⟩))⟩⟩, ⟨by decide, .inl ⟨rfl, rfl, _, _, rfl⟩⟩,
    ⟨by decide, .inr ⟨rfl, .inr (.inr (.inr ⟨_, rfl, by decide +kernel⟩))⟩⟩,
    ⟨by decide, .inr ⟨rfl, .inr (.inr (.inr ⟨_, rfl, by decide +kernel⟩))⟩⟩, fun _ h => by cases h⟩

theorem witness_QuietPeriodCountsTimers_owner : ∀ e ∈ ownersAtEnd, e.1.pending = [] ∧ e.1.phase ≠ .held ∧ e.1.EndsBy e.2 ∧
    (e.1.accessLeft = 1 ∨ (e.1.accessLeft = 5 ∧ e.2 = .postingRecordCorrupt)) ∧ e.1.stretch = .none ∧ e.1.WireQuiet ∧
    e.1.ResponsesQuiet ∧ (∀ x, e.1.RecordQuiet x) ∧ e.1.DividersQuiet := by
  intro e he
  have h : e.1.pending = [] ∧ (e.1.accessLeft = 1 ∨ (e.1.accessLeft = 5 ∧ e.2 = .postingRecordCorrupt)) ∧ Free e.1 := by
    revert e
    unfold Free
    simp only [ownersAtEnd, List.forall_mem_cons]
    exact ⟨by decide +kernel, by decide +kernel, by decide +kernel, by decide +kernel, by decide +kernel, by decide +kernel,
      fun _ h => by cases h⟩
  exact ⟨h.1, (ownersAtEnd_endsBy e he).1, (ownersAtEnd_endsBy e he).2, h.2.1, h.2.2.quiet⟩

/-- A read that waited, one period before its access ends. -/
def readUnderWay : State := { base with owner := .passed, accessLeft := 1, cycles := [.read 0 false] }

theorem witness_QuietPeriodCountsTimers_read : ∃ (s : State) (a : Word), s.pending = [] ∧ s.phase = .ready ∧ s.owner = .passed ∧
    s.cycles = [.read a false] ∧ s.map.region a = .outside ∧ s.isPassed (.read a false) = true ∧ s.accessLeft = 1 ∧ s.stretch = .none ∧
    s.WireQuiet ∧ s.ResponsesQuiet ∧ (∀ x, s.RecordQuiet x) ∧ s.DividersQuiet :=
  ⟨readUnderWay, 0, rfl, rfl, rfl, rfl, by decide +kernel, by decide +kernel, rfl, Free.quiet (s := readUnderWay) (by unfold Free; decide +kernel)⟩

/-- Every record's timers run on in a state whose records but two are as in `base`. -/
theorem recordsQuiet_of (s : State) (h : ∀ x : Circuit, (((s.record x).settle.all fun n => decide (1 < n))
      && ((s.record x).guardTimer.all fun n => decide (1 < n)) && ((s.record x).calledClear.all fun n => decide (1 < n))) = true) :
    ∀ x, s.RecordQuiet x := fun x => recordQuiet_of s x (h x)

theorem base_quiet : base.pending = [] ∧ base.phase ≠ .held ∧ base.cycles = [] ∧ base.PortQuiet ∧ base.WireQuiet ∧
    base.ResponsesQuiet ∧ (∀ x, base.RecordQuiet x) ∧ base.DividersQuiet :=
  ⟨rfl, by decide, rfl, ⟨fun h => absurd rfl h, rfl⟩, ⟨fun h => absurd rfl h, fun _ => by decide⟩, (by intro o h; cases h),
    recordsQuiet_of _ (by decide +kernel), by decide, by decide⟩

theorem witness_QuietPeriodCountsTimers_stretch : ∃ (s : State) (c : Cycle), s.pending = [] ∧ s.phase ≠ .held ∧ s.stretch = .held 1 ∧
    s.cycles = [c] ∧ (s.owner ≠ .none → 5 < s.accessLeft) ∧ s.WireQuiet ∧ s.ResponsesQuiet ∧ (∀ x, s.RecordQuiet x) ∧ s.DividersQuiet :=
  ⟨{ base with stretch := .held 1, cycles := [.write 0xF07F 1] }, _, rfl, by decide, rfl, rfl, fun h => absurd rfl h,
    base_quiet.2.2.2.2.1, base_quiet.2.2.2.2.2.1, base_quiet.2.2.2.2.2.2.1, base_quiet.2.2.2.2.2.2.2⟩

theorem witness_QuietPeriodCountsTimers_mxo : ∃ (s s' : State) (c : PortCommand), (∀ u ∈ [s, s'], u.pending = [] ∧ u.phase ≠ .held ∧
      u.cycles = [] ∧ u.PortQuiet ∧ u.ResponsesQuiet ∧ (∀ x, u.RecordQuiet x) ∧ u.DividersQuiet) ∧
    (s.onWire = some c ∧ s.wireLeft = 1) ∧ s'.onWire = none ∧ s'.bitClock + 1 = 64 ∧ s'.txQueue = [c] := by
  refine ⟨{ base with onWire := some .clearAll, wireLeft := 1 }, { base with bitClock := 63, txQueue := [.clearAll] }, .clearAll, ?_,
    ⟨rfl, rfl⟩, rfl, rfl, rfl⟩
  obtain ⟨h1, h2, h3, h4, -, h6, h7, h8⟩ := base_quiet
  intro u hu
  rcases List.mem_cons.mp hu with rfl | hu
  · exact ⟨h1, h2, h3, h4, h6, h7, h8⟩
  · obtain rfl := List.mem_singleton.mp hu
    exact ⟨h1, h2, h3, h4, h6, h7, h8⟩

theorem witness_QuietPeriodCountsTimers_response : ∃ (s : State) (o : Outstanding) (later : List Outstanding), s.pending = [] ∧
    s.phase ≠ .held ∧ s.cycles = [] ∧ s.PortQuiet ∧ s.outstanding = [] ++ o :: later ∧ o.left = 1 ∧ (∀ q ∈ later, 1 < q.left) ∧
    s.WireQuiet ∧ (∀ x, s.RecordQuiet x) ∧ s.DividersQuiet := by
  obtain ⟨h1, h2, h3, h4, h5, -, h7, h8⟩ := base_quiet
  exact ⟨{ base with outstanding := [⟨.makeJob, .a 1 5 0, 5, 1⟩, ⟨.breakJob, .a 2 5 0, 6, 2⟩] }, _, _, h1, h2, h3, h4, rfl, rfl,
    by decide, h5, h7, h8⟩

/-- `base` with the settle, guard or called-clear timer of record 5 at its last period. -/
def timerDue (st : CallState) (settle guardTimer calledClear : Option Nat) : State :=
  withRec base 5 { call5 st .made .made .made .made with settle := settle, guardTimer := guardTimer, calledClear := calledClear }

theorem witness_QuietPeriodCountsTimers_record : ∀ s ∈ [timerDue .ringing (some 1) none none, timerDue .guarded none (some 1) none,
      timerDue .answered none none (some 1)],
    s.pending = [] ∧ s.phase ≠ .held ∧ s.cycles = [] ∧ s.PortQuiet ∧ (∀ y, y ≠ 5 → s.RecordQuiet y) ∧ s.WireQuiet ∧
    s.ResponsesQuiet ∧ s.DividersQuiet := by
  obtain ⟨h1, h2, h3, h4, h5, h6, -, h8⟩ := base_quiet
  have hq : ∀ st a b c, ∀ y : Circuit, y ≠ 5 → (timerDue st a b c).RecordQuiet y := by
    intro st a b c y hy
    refine recordQuiet_of _ y ?_
    have h : (timerDue st a b c).record y = base.record y := by
      have h' : (5 : Circuit).val ≠ y.val := fun e => hy (Fin.ext e.symm)
      simp only [timerDue, withRec, State.record, State.setRecord]
      exact Vector.getElem_set_ne _ _ h'
    rw [h]
    simp [State.record, base, CallRecord.blank]
  simp only [List.forall_mem_cons]
  exact ⟨⟨h1, h2, h3, h4, hq _ _ _ _, h5, h6, h8⟩, ⟨h1, h2, h3, h4, hq _ _ _ _, h5, h6, h8⟩,
    ⟨h1, h2, h3, h4, hq _ _ _ _, h5, h6, h8⟩, fun _ h => by cases h⟩

theorem witness_QuietPeriodCountsTimers_dividers : ∃ s s' : State, (∀ u ∈ [s, s'], u.pending = [] ∧ u.phase ≠ .held ∧ u.cycles = [] ∧
      u.PortQuiet ∧ u.WireQuiet ∧ u.ResponsesQuiet ∧ (∀ x, u.RecordQuiet x)) ∧
    (s.scanDivider + 1 = 40960 ∧ s.tickDivider + 1 < 409600) ∧ s'.scanDivider + 1 < 40960 ∧ s'.tickDivider + 1 = 409600 := by
  refine ⟨{ base with scanDivider := 40959 }, { base with tickDivider := 409599 }, ?_, by decide, by decide⟩
  obtain ⟨h1, h2, h3, h4, h5, h6, h7, -⟩ := base_quiet
  intro u hu
  rcases List.mem_cons.mp hu with rfl | hu
  · exact ⟨h1, h2, h3, h4, h5, h6, h7⟩
  · obtain rfl := List.mem_singleton.mp hu
    exact ⟨h1, h2, h3, h4, h5, h6, h7⟩

theorem witness_StepKeepsStoreCanonical : ∃ s t : State, s.StoreInv ∧ step s = .next t :=
  ⟨{ base with mem := [(0, 1), (65535, 0xFFFF)], pending := [.passedWrite 0 ⟨0, false⟩] }, _, by unfold State.StoreInv; decide +kernel, rfl⟩

theorem fullQueues_inv : fullQueues.QueueInv :=
  ⟨by decide +kernel, by decide +kernel, by decide +kernel, by decide +kernel, by decide +kernel, by decide +kernel, by decide +kernel⟩

theorem witness_StepKeepsQueueBounds : ∃ s t : State, s.QueueInv ∧ step s = .next t := ⟨fullQueues, _, fullQueues_inv, rfl⟩

theorem fullCounts_inv : fullCounts.CountInv where
  records := by
    intro x
    have h : fullCounts.record x =
        { CallRecord.blank .answered with
          acc := 65535, paid := 65535, owed := 127, credit := 255, duration := 16777215, grace := some 100 } := by
      simp [State.record, fullCounts]
    rw [h]
    exact ⟨by decide, by decide, by decide, by decide, by decide, by intro n h; cases h; decide⟩
  pulses := by intro l; simp [State.line, fullCounts]
  minute := by decide
  second := by decide
  tenths := by decide
  calendar := by intro i; simp [fullCounts]
  interval := by intro d b; simp [State.tariffEntry, fullCounts]
  initial := by intro d b; simp [State.tariffEntry, fullCounts]
  increment := by intro d b; simp [State.tariffEntry, fullCounts, tariffIncrement]
  sequence := by decide

theorem witness_StepKeepsCounts : ∃ s t : State, s.CountInv ∧ step s = .next t := ⟨fullCounts, _, fullCounts_inv, rfl⟩

/-- Tickets at the ends of their ranges, held and waiting. -/
def fullBody : TicketBody :=
  { composeTicket 47 (CallRecord.blank .closing) with
    credit := 255, owed := 127, answerMinute := 10079, answerSecond := 59, duration := 65535, paid := 65535, calling := some 511,
    called := some (.junction 23), cause := some .pathFault, bandAtAnswer := 3, distBand := 7, reAnswer := true, longCall := true }

theorem fullBody_inRange : fullBody.InRange :=
  ⟨by decide, by decide, by decide, by decide, by decide, by decide, by decide⟩

def fullTickets : State :=
  { base with
    holdQueue := List.replicate 8 ⟨65535, fullBody⟩, closingWaiters := [(47, fullBody)], writeIndex := 511, readIndex := 511,
    points := (Vector.replicate 112 ⟨false, some 25⟩), pending := [.ticketBurstEnd] }

theorem fullTickets_inv : fullTickets.TicketInv where
  held := by
    intro k hk
    obtain ⟨-, rfl⟩ := List.mem_replicate.mp hk
    exact ⟨by decide, fullBody_inRange⟩
  waiting := by
    intro e he
    obtain rfl := List.mem_singleton.mp he
    exact fullBody_inRange
  stamps := by
    intro x st m n h
    simp [State.record, fullTickets, base, CallRecord.blank] at h
  incoming := by
    intro x _
    simp [State.record, fullTickets, base, CallRecord.blank]

theorem witness_StepKeepsCounts_rings : ∃ s t : State, s.ScanInv ∧ s.RingInv ∧ s.TicketInv ∧ step s = .next t :=
  ⟨fullTickets, _, by intro p n h; simp [fullTickets] at h; omega,
    ⟨by decide, by decide, fun h => absurd rfl h⟩, fullTickets_inv, rfl⟩

theorem witness_StepKeepsValidMap : ∃ s t : State, s.phase = .ready ∧ s.MapInv ∧ step s = .next t :=
  ⟨{ base with map := edgeMap, threshold := 8, pending := [.masterReset] }, _, rfl, fun _ => by decide +kernel, rfl⟩

/-! ## Witnesses: resets and configuration -/

theorem witness_MasterResetLeavesResetValues : ∃ s : State, s.owner = .none ∧ s.cycles ≠ [] :=
  ⟨{ base with stretch := .held 164, cycles := [.write 0xF04B 1] }, by decide +kernel⟩

theorem witness_MasterResetLeavesResetValues_owner : (∀ e ∈ ownersAtEnd, e.1.phase ≠ .held ∧ e.1.EndsBy e.2) ∧
    readUnderWay.phase = .ready ∧ readUnderWay.owner = .passed ∧ readUnderWay.cycles = [.read 0 false] ∧
    readUnderWay.map.region 0 = .outside := ⟨ownersAtEnd_endsBy, rfl, rfl, rfl, by decide +kernel⟩

theorem witness_PartialResetClearsOrdersAndReports_owner : ∀ e ∈ ownersAtEnd, e.1.phase ≠ .held ∧ e.1.stretch = .none ∧ e.1.EndsBy e.2 :=
  fun e he => ⟨(ownersAtEnd_endsBy e he).1, (witness_QuietPeriodCountsTimers_owner e he).2.2.2.2.1, (ownersAtEnd_endsBy e he).2⟩

theorem witness_PartialResetClearsOrdersAndReports_passed : readUnderWay.phase = .ready ∧ readUnderWay.stretch = .none ∧
    readUnderWay.owner = .passed ∧ readUnderWay.cycles = [.read 0 false] ∧ readUnderWay.map.region 0 = .outside :=
  ⟨rfl, rfl, rfl, rfl, by decide +kernel⟩

theorem witness_HeldUntilMrstRelease : ∃ s : State, s.phase = .held := ⟨.reset, rfl⟩

theorem witness_PartialResetClearsOrdersAndReports : ∃ (s s' : State) (n : Nat) (c : Cycle),
    (s.phase ≠ .held ∧ s.owner = .none ∧ s.stretch = .none ∧ s.cycles = []) ∧
    s'.phase ≠ .held ∧ s'.owner = .none ∧ s'.stretch = .held n ∧ s'.cycles = [c] :=
  ⟨base, { base with stretch := .held 164, cycles := [.write 0xF04B 1] }, 164, .write 0xF04B 1, by decide +kernel⟩

theorem witness_ConfigurationWordTaken : ∃ (s s' : State) (taken : List Word) (o ce ca m ti : Word),
    (s.phase = .loading taken ∧ s.PortFree ∧ taken.length < 5) ∧ s'.phase = .loading [o, ce, ca, m, ti] ∧ s'.PortFree :=
  ⟨{ base with phase := .loading [0x8000, 0x8080, 0x8100, 0x8400] },
    { base with phase := .loading [0x8000, 0x8080, 0x8100, 0x8400, 0x8800] }, [0x8000, 0x8080, 0x8100, 0x8400], 0x8000, 0x8080, 0x8100,
    0x8400, 0x8800, by unfold State.PortFree; decide +kernel⟩

theorem witness_ValidMapResolvesRegions : configValid edgeMap 8 = true ∧ configValid { RegionMap.preset with code := 0 } 1 = true := by
  decide +kernel

/-! ## Witnesses: processor cycles -/

theorem base_portFree : base.PortFree := by unfold State.PortFree; decide +kernel

theorem base_mapInv : base.MapInv := fun _ => by decide +kernel

theorem base_storeInv : base.StoreInv := by unfold State.StoreInv; decide +kernel

theorem witness_PassedReadAnswers : ∃ (s : State) (a b c d e f : Word), s.PortFree ∧ s.MapInv ∧ s.phase = .ready ∧
    s.map.region a = .outside ∧ s.map.region b = .outside ∧ s.map.region c = .order 0 ∧ s.map.region d = .order 127 ∧
    s.map.region e = .ticket 4095 ∧ s.map.region f = .meter 1023 :=
  ⟨base, 0xDFFF, 0xFFFF, 0xF000, 0xF07F, 0xEFFF, 0xF7FF, base_portFree, base_mapInv, by decide +kernel⟩

theorem witness_PassedReadAnswers_loading : ∃ (s : State) (taken : List Word), s.PortFree ∧ s.phase = .loading taken :=
  ⟨{ base with phase := .loading [] }, [], base_portFree, rfl⟩

theorem witness_WritesPassedOrGuarded : ∃ (s : State) (a b c d v : Word), s.PortFree ∧ s.StoreInv ∧ s.phase = .ready ∧
    s.map.region a = .outside ∧ s.map.region b = .cells 3 ∧ s.map.region c = .cells 15 ∧ s.map.region d = .order 127 ∧
    v.getLsbD 15 = true :=
  ⟨base, 0xDFFF, 0xF083, 0xF08F, 0xF07F, 0x8000, base_portFree, base_storeInv, by decide +kernel⟩

theorem witness_WritesPassedOrGuarded_guarded : ∃ (s : State) (a b c d e : Word), s.PortFree ∧ s.phase = .ready ∧
    s.map.region a = .calls 0 ∧ s.map.region b = .calls 255 ∧ s.map.region c = .meter 0 ∧ s.map.region d = .ticket 0 ∧
    s.map.region e = .ticket 4095 :=
  ⟨base, 0xF100, 0xF1FF, 0xF400, 0xE000, 0xEFFF, base_portFree, by decide +kernel⟩

/-- Full counts, and the ring indices at their largest values. -/
def fullRing : State :=
  { fullCounts with writeIndex := 511, readIndex := 511, ringFull := true, latch := some (.payTone 5 127), pending := [] }

theorem fullRing_countInv : fullRing.CountInv :=
  ⟨fullCounts_inv.records, fullCounts_inv.pulses, fullCounts_inv.minute, fullCounts_inv.second, fullCounts_inv.tenths,
    fullCounts_inv.calendar, fullCounts_inv.interval, fullCounts_inv.initial, fullCounts_inv.increment, fullCounts_inv.sequence⟩

theorem witness_ServedReadsShowState : ∃ s : State, s.PortFree ∧ s.phase = .ready ∧ s.CountInv ∧ s.QueueInv ∧ s.writeIndex < 512 ∧
    s.readIndex < 512 ∧ (∀ off : Fin 16, s.map.region (0xF080 + BitVec.ofNat 16 off.val) = .cells off.val) ∧
    ∀ off : Fin 256, s.map.region (0xF100 + BitVec.ofNat 16 off.val) = .calls off.val :=
  ⟨fullRing, by unfold State.PortFree; decide +kernel, rfl, fullRing_countInv,
    ⟨by decide +kernel, by decide +kernel, by decide +kernel, by decide +kernel, by decide +kernel, by decide +kernel,
      by decide +kernel⟩, by decide +kernel⟩

theorem witness_StatusReadShowsAndClears : ∃ s : State, s.PortFree ∧ s.phase = .ready ∧ s.MapInv := ⟨base, base_portFree, rfl, base_mapInv⟩

theorem witness_ReportAReadPops : ∃ (s s' : State) (r : Report) (rest : List Report), (s.PortFree ∧ s.phase = .ready ∧ s.MapInv ∧
    s.reports = []) ∧ s'.PortFree ∧ s'.phase = .ready ∧ s'.MapInv ∧ s'.reports = r :: rest :=
  ⟨base, { base with reports := [.bandChange 3] }, .bandChange 3, [], ⟨base_portFree, rfl, base_mapInv, rfl⟩, base_portFree, rfl,
    base_mapInv, rfl⟩

theorem witness_ReadIndexWriteJudged : ∃ s : State, s.PortFree ∧ s.phase = .ready ∧ s.MapInv ∧ s.StoreInv ∧ s.reports.length < 32 :=
  ⟨{ base with reports := List.replicate 31 (.seize 50) }, base_portFree, rfl, base_mapInv, base_storeInv, by decide +kernel⟩

theorem witness_ReadIndexWriteJudged_full : ∃ s : State, s.PortFree ∧ s.phase = .ready ∧ s.MapInv ∧ s.StoreInv ∧ 32 ≤ s.reports.length :=
  ⟨{ base with reports := List.replicate 32 (.seize 50) }, base_portFree, rfl, base_mapInv, base_storeInv, by decide +kernel⟩

theorem witness_ArgumentWordCaptured : ∃ s : State, s.PortFree ∧ s.phase = .ready ∧ s.MapInv ∧ s.StoreInv :=
  ⟨base, base_portFree, rfl, base_mapInv, base_storeInv⟩

/-- An order queue of a length. -/
def queued (n : Nat) : State := { base with orderQueue := List.replicate n { slot := 10, kind := 0, w0 := 0, w1 := 0, w2 := 0 } }

theorem witness_OrderWordJudged : ∃ s7 s8 busy : State, (∀ s ∈ [s7, s8, busy], s.PortFree ∧ s.phase = .ready ∧ s.MapInv ∧ s.StoreInv) ∧
    (s7.slot 31).state = .idle ∧ s7.orderQueue.length < 8 ∧ (s8.slot 31).state = .idle ∧ 8 ≤ s8.orderQueue.length ∧
    (busy.slot 31).state ≠ .idle :=
  ⟨queued 7, queued 8, withSlot base 31 .queued, by
    simp only [List.forall_mem_cons, State.MapInv, State.StoreInv, State.PortFree]; decide +kernel⟩

/-- The processor's order write of kind 1 for slot 31, under way. -/
def orderUnderWay (n : Nat) : State := { queued n with owner := .processor, cycles := [.write 0xF07F 1] }

theorem witness_OrderWriteEnds_waiting : ∃ (s : State) (a v : Word) (off : Nat) (j : OrderSlot), s.phase = .ready ∧ s.StoreInv ∧
    s.owner = .processor ∧ s.cycles = [.write a v] ∧ s.map.region a = .order off ∧ s.orderQueue.length < 8 ∧
    s.dispatcher = .waiting j ∧ (s.slot (offsetSlot off)).state = .idle :=
  ⟨{ orderUnderWay 7 with dispatcher := .waiting 9 }, 0xF07F, 1, 127, 9, by unfold State.StoreInv; decide +kernel⟩

theorem witness_OrderWriteEnds_order : ∃ (s : State) (a v : Word) (off : Nat) (i : Instr), s.phase = .ready ∧ s.owner = .processor ∧
    s.cycles = [.write a v] ∧ s.map.region a = .order off ∧ s.orderQueue.length < 8 ∧ (s.slot (offsetSlot off)).state = .idle ∧
    s.entryOf i = some
      { slot := offsetSlot off, kind := v.extractLsb' 0 5, w0 := (s.slot (offsetSlot off)).w0,
        w1 := (s.slot (offsetSlot off)).w1, w2 := (s.slot (offsetSlot off)).w2 } :=
  ⟨orderUnderWay 0, 0xF07F, 1, 127, .connectLocal 31 0 0, by decide +kernel⟩

theorem witness_OrderWriteEnds_stretched : ∃ (s : State) (n : Nat) (c : Cycle), s.phase ≠ .held ∧ s.stretch = .held n ∧ s.cycles = [c] :=
  ⟨{ queued 8 with stretch := .held 1, cycles := [.write 0xF07F 1] }, 1, .write 0xF07F 1, by decide +kernel⟩

theorem witness_ArbiterGrantsInOrder : ∃ result ticket meter posting idle : State,
    (∀ s ∈ [result, ticket, meter, posting, idle], s.phase = .ready ∧ s.cycles = [] ∧ s.owner = .none ∧ s.burst = .idle) ∧
    result.results ≠ [] ∧ (ticket.results = [] ∧ ticket.holdQueue ≠ [] ∧ ticket.ringFull = false) ∧
    (meter.results = [] ∧ meter.holdQueue ≠ [] ∧ meter.ringFull = true ∧ meter.setMeterJob = some ⟨3, 37, 0⟩ ∧ meter.readPair ≠ some 37) ∧
    (posting.results = [] ∧ posting.holdQueue = [] ∧ posting.setMeterJob = none ∧ (posting.line 511).pulses ≠ 0 ∧
      posting.readPair ≠ some 511 ∧ (posting.line 511).fault = .saturated) ∧
    (idle.results = [] ∧ idle.holdQueue = [] ∧ idle.setMeterJob = none ∧ (idle.line 0).pulses ≠ 0 ∧ idle.readPair = some 0 ∧
      ∀ l, (idle.line l).pulses = 0 ∨ idle.readPair = some l ∨ (idle.line l).fault = .parity ∨ (idle.line l).fault = .corrupt) :=
  ⟨{ base with results := [⟨3, .done, none⟩] }, ring 3 5 false 210 1,
    { ring 5 5 true 210 8 with setMeterJob := some ⟨3, 37, 0⟩, readPair := some 36 },
    base.modifyLine 511 fun e => { e with pulses := 1, fault := .saturated },
    { base.modifyLine 0 fun e => { e with pulses := 1 } with readPair := some 0 }, by
      refine ⟨?_, by decide +kernel, by decide +kernel, by decide +kernel, by decide +kernel, rfl, rfl, rfl, by decide +kernel, rfl,
        fun l => ?_⟩
      · simp only [List.forall_mem_cons]; decide +kernel
      · by_cases h : l = 0
        · exact .inr (.inl (h ▸ rfl))
        · have h' : (0 : Line).val ≠ l.val := fun e => h (Fin.ext e.symm)
          left
          show ((base.modifyLine 0 fun e => { e with pulses := 1 }).line l).pulses = 0
          simp only [State.modifyLine, State.setLine, State.line]
          exact (congrArg LineEntry.pulses (Vector.getElem_set_ne _ _ h')).trans (by simp [base])⟩

theorem witness_ArbiterGrantsInOrder_processor : ∃ (s s' : State) (a : Word),
    (∀ u ∈ [s, s'], u.phase = .ready ∧ u.cycles = [] ∧ u.owner = .none ∧ u.stretch = .none ∧ u.results ≠ [] ∧
      u.map.region a = .outside) ∧ s.grantCount = 7 ∧ s'.grantCount = 8 :=
  ⟨{ base with results := [⟨3, .done, none⟩], grantCount := 7 }, { base with results := [⟨3, .done, none⟩], grantCount := 8 }, 0, by
    simp only [List.forall_mem_cons]; decide +kernel⟩

/-- The poster's pointer at 510: the retry line 3 is eligible; or it has an open read pair, and line 1 is the first from 510 on; or no
line is eligible, and a SET METER waits for the pair on its line to close. -/
theorem witness_ArbiterGrantsInOrder_poster : ∃ retry first nothing : State,
    (∀ s ∈ [retry, first, nothing], s.phase = .ready ∧ s.cycles = [] ∧ s.owner = .none ∧ s.burst = .idle ∧ s.results = [] ∧
      s.holdQueue = [] ∧ (∀ j : SetMeterJob, s.setMeterJob = some j → s.readPair = some j.line)) ∧
    (retry.retryLine = some 3 ∧ (retry.line 3).pulses ≠ 0 ∧ retry.readPair ≠ some 3 ∧ (retry.line 3).fault = .none) ∧
    (first.retryLine = some 3 ∧ first.readPair = some 3 ∧ first.postPointer = 510 ∧ (first.line (510 + 3)).pulses ≠ 0 ∧
      first.readPair ≠ some (510 + 3) ∧ (first.line (510 + 3)).fault = .none ∧
      ∀ m : Line, m < 3 → ¬ ((first.line (510 + m)).pulses ≠ 0 ∧ first.readPair ≠ some (510 + m))) ∧
    nothing.setMeterJob = some ⟨3, 0, 7⟩ ∧ ∀ l, ¬ ((nothing.line l).pulses ≠ 0 ∧ nothing.readPair ≠ some l) :=
  ⟨{ base.modifyLine 3 fun e => { e with pulses := 1 } with retryLine := some 3, postPointer := 510 },
    { (base.modifyLine 3 fun e => { e with pulses := 1 }).modifyLine 1 fun e => { e with pulses := 2 } with
      retryLine := some 3, postPointer := 510, readPair := some 3 },
    { base with readPair := some 0, setMeterJob := some ⟨3, 0, 7⟩ }, by
      refine ⟨?_, by decide +kernel, by decide +kernel, rfl, fun l h => h.1 (by simp [State.line, base])⟩
      simp only [List.forall_mem_cons]
      exact ⟨⟨rfl, rfl, rfl, rfl, rfl, rfl, fun j h => by cases h⟩, ⟨rfl, rfl, rfl, rfl, rfl, rfl, fun j h => by cases h⟩,
        ⟨rfl, rfl, rfl, rfl, rfl, rfl, fun j h => by cases h; rfl⟩, fun _ h => by cases h⟩⟩

theorem witness_ArbiterGrantsInOrder_waited : ∃ (s s' : State) (a b : Word),
    (s.phase = .ready ∧ s.cycles = [.read a false] ∧ s.owner = .none ∧ s.stretch = .none ∧ s.map.region a = .outside ∧ s.grantCount < 8) ∧
    s'.phase = .ready ∧ s'.cycles = [.read b true] ∧ s'.owner = .none ∧ s'.stretch = .none ∧
    s'.map.region b = .meter (2 * (511 : Line).val) ∧ s'.grantCount < 8 :=
  ⟨{ base with cycles := [.read 0 false], results := [⟨3, .done, none⟩], grantCount := 7 },
    { base with cycles := [.read 0xF7FE true], readPair := some 3 }, 0, 0xF7FE, by decide +kernel⟩

theorem witness_ArbiterGrantsInOrder_strobe : ∃ (s s' : State) (a b : Word),
    (∀ u ∈ [s, s'], u.phase = .ready ∧ u.owner = .passed ∧ u.cycles = [.read a false] ∧ u.results ≠ [] ∧ u.map.region a = .outside ∧
      u.map.region b = .outside) ∧ s.grantCount = 7 ∧ s'.grantCount = 8 :=
  ⟨{ readUnderWay with results := [⟨3, .done, none⟩], grantCount := 7 },
    { readUnderWay with results := [⟨3, .done, none⟩], grantCount := 8 }, 0, 0xDFFF, by
    simp only [List.forall_mem_cons]; decide +kernel⟩

theorem witness_ArbiterGrantsInOrder_counts : ∃ (s s' u : State) (a : Word),
    (s.PortFree ∧ s.phase = .ready ∧ s.map.region a = .outside ∧ s.results ≠ []) ∧
    (s'.PortFree ∧ s'.phase = .ready ∧ s'.map.region a = .outside ∧ s'.results = [] ∧ s'.burst = .idle ∧ s'.holdQueue = [] ∧
      s'.meterRequest = false ∧ s'.setMeterJob = none ∧ s'.grantCount = 7 ∧ ∀ l, (s'.line l).pulses = 0) ∧
    u.phase = .ready ∧ u.cycles = [] ∧ u.owner = .none ∧ u.burst = .idle ∧ u.results = [] ∧ u.holdQueue = [] ∧ u.setMeterJob = none ∧
      u.meterRequest = true ∧ ∀ l, (u.line l).pulses = 0 :=
  ⟨{ base with results := [⟨3, .done, none⟩], grantCount := 7 }, { base with grantCount := 7 }, { base with meterRequest := true }, 0,
    ⟨⟨rfl, rfl, rfl, by decide⟩, rfl, by decide +kernel, by decide⟩,
    ⟨⟨rfl, rfl, rfl, by decide⟩, rfl, by decide +kernel, rfl, rfl, rfl, rfl, rfl, rfl, fun l => by simp [State.line, base]⟩,
    rfl, rfl, rfl, rfl, rfl, rfl, rfl, rfl, fun l => by simp [State.line, base]⟩

/-! ## Witnesses: orders -/

theorem witness_OrderQueuedOrNotTaken : ∃ (s full busy : State) (i : Instr) (e : OrderEntry) (j : OrderSlot),
    (s.entryOf i = some e ∧ s.phase = .ready ∧ (s.slot e.slot).state = .idle ∧ s.orderQueue.length < 8 ∧ s.dispatcher = .waiting j ∧
      s.cycles = [] ∧ s.stretch = .none ∧ s.owner ≠ .processor) ∧
    (full.entryOf i = some e ∧ full.phase = .ready ∧ 8 ≤ full.orderQueue.length) ∧
    busy.entryOf i = some e ∧ busy.phase = .ready ∧ (busy.slot e.slot).state ≠ .idle :=
  ⟨{ queued 7 with dispatcher := .waiting 9 }, queued 8, withSlot base 31 .inFlight, .release 31 5, ⟨31, 4, 5, 0, 0⟩, 9, by decide +kernel⟩

theorem base_orderFree (i : OrderSlot) : base.OrderFree i := by
  unfold State.OrderFree
  revert i
  decide +kernel

theorem witness_BadOrderAnswered : (∀ kind : BitVec 5, kind = 0 ∨ kind = 14 ∨ kind = 31 → kind.toNat = 0 ∨ 13 < kind.toNat) ∧
    ∀ i, base.OrderFree i := ⟨by decide, base_orderFree⟩

/-- Every check of CONNECT LOCAL and CONNECT OUTGOING meets a line or queue that fails it. -/
def refusing : State :=
  let s := withClass (withClass (withClass base 1 .spare) 2 .incomingOnly) 4 .coin
  { (s.setBusy (some 3) (some 5)) with
    holdQueue := (ring 5 5 true 212 8).holdQueue }

theorem refusing_orderFree : refusing.OrderFree 3 := by unfold State.OrderFree; decide +kernel

theorem witness_ConnectRefusals_local : refusing.OrderFree 3 ∧ (refusing.line 1).cls = .spare ∧ (refusing.line 2).cls = .incomingOnly ∧
    (refusing.line 3).busy ≠ none ∧ (refusing.line 4).cls = .coin ∧ 8 ≤ refusing.holdQueue.length ∧ (512 : Word).toNat = 512 :=
  ⟨refusing_orderFree, by decide +kernel⟩

theorem witness_ConnectRefusals_incoming : ∃ s : State, s.OrderFree 3 ∧ (s.record 48).state ≠ .seized ∧ (s.record 55).state = .seized ∧
    (s.line 1).cls = .spare ∧ (s.line 3).busy ≠ none ∧ (56 : Word).toNat = 56 :=
  ⟨withRec refusing 55 (CallRecord.blank .seized), by unfold State.OrderFree; decide +kernel⟩

/-- The checks of a connect passed, the hunt at its last candidate (the 24th cord, the 8th junction), from the worked hunt's lines. -/
def lastChoice : State :=
  { base with
    cordPtr := 3, groupPtrs := base.groupPtrs.set 2 6,
    circuitInService := ((Vector.replicate 56 false).set 2 true).set 45 true }

theorem witness_ConnectLocalHunts : ∃ (s s' : State) (n : Cord), (∀ u ∈ [s, s'], u.OrderFree 3 ∧ (u.line 37).cls ≠ .spare ∧
      (u.line 37).cls ≠ .incomingOnly ∧ (u.line 37).busy = none ∧ (u.line 300).cls ≠ .spare ∧ (u.line 300).busy = none ∧
      ((u.line 37).cls = .coin ∨ (u.line 37).cls = .detailed → u.holdQueue.length < 8)) ∧ n = 23 ∧
    s.cordSuitable 37 300 (s.cordPtr + n) ∧ (∀ m, m < n → ¬ s.cordSuitable 37 300 (s.cordPtr + m)) ∧
    ∀ c, ¬ s'.cordSuitable 37 300 c :=
  ⟨lastChoice, { base with circuitInService := Vector.replicate 56 false }, 23, by
    simp only [List.forall_mem_cons, State.OrderFree, State.cordSuitable, State.pathFree]; and_intros <;> decide +kernel⟩

theorem witness_ConnectJunctionHunts_outgoing : ∃ (s s' : State) (n : Fin 8), (∀ u ∈ [s, s'], u.OrderFree 3 ∧ (u.line 37).cls ≠ .spare ∧
      (u.line 37).cls ≠ .incomingOnly ∧ (u.line 37).busy = none ∧ u.holdQueue.length < 8) ∧ n = 7 ∧
    s.junctionSuitable 37 2 (s.groupPtrs[(2 : JunctionGroup)] + n) ∧
    (∀ m, m < n → ¬ s.junctionSuitable 37 2 (s.groupPtrs[(2 : JunctionGroup)] + m)) ∧ ∀ q, ¬ s'.junctionSuitable 37 2 q :=
  ⟨lastChoice, { base with circuitInService := Vector.replicate 56 false }, 7, by
    simp only [List.forall_mem_cons, State.OrderFree, State.junctionSuitable, State.pathFree]; and_intros <;> decide +kernel⟩

theorem witness_ConnectJunctionHunts_incoming : ∃ s s' : State, (∀ u ∈ [s, s'], u.OrderFree 3 ∧ (u.record 48).state = .seized ∧
      (u.line 511).cls ≠ .spare ∧ (u.line 511).busy = none) ∧ s.incomingSuitable 48 511 ∧ ¬ s'.incomingSuitable 48 511 :=
  ⟨withRec base 48 (CallRecord.blank .seized),
    withRec { base with circuitInService := Vector.replicate 56 false } 48 (CallRecord.blank .seized), by
    simp only [List.forall_mem_cons, State.OrderFree, State.incomingSuitable, State.pathFree]; decide +kernel⟩

theorem witness_ReleaseAnsweredOrClears : ∃ s : State, s.OrderFree 3 ∧ (s.record 55).state = .free ∧ (s.record 5).state = .answered ∧
    nextMade (s.record 5).path = some (.b 1 9 1) :=
  ⟨withRec base 5 (call5 .answered .made .made .made .made), by unfold State.OrderFree; decide +kernel⟩

theorem witness_ReleaseReservedFrees : ∃ s : State, s.OrderFree 3 ∧ (s.record 55).state = .reserved ∧ s.fPresent 55 = true ∧
    (s.record 0).state = .reserved :=
  ⟨withPoints (withRec (withRec { base with waitList := [0, 55] } 55 (CallRecord.blank .reserved)) 0 (CallRecord.blank .reserved)) 55 true
    false, by unfold State.OrderFree; decide +kernel⟩

/-- Record 5 in SETTING, a MAKE in flight. -/
def setting5 (m0 m1 : Mark) (tx : List PortCommand) : State :=
  withRec { base with txQueue := tx, operateSlots := base.operateSlots.set 3 (some 5) } 5 (call5 .setting m0 m1 .unmade .unmade)

theorem witness_ReleaseSettingWithdrawsOrWaits : ∃ s s' s'' : State,
    (∀ u ∈ [s, s', s''], u.OrderFree 3 ∧ (u.record 5).state = .setting ∧ u.waitList = []) ∧ s.txQueue = [] ∧
    (inFlightPoint (s'.record 5).path = some (.b 0 1 1) ∧ .makeCmd 5 (.b 0 1 1) ∈ s'.txQueue ∧
      nextMade (markPath (s'.record 5).path (.b 0 1 1) .unmade) = some (.a 1 5 0)) ∧
    inFlightPoint (s''.record 5).path = some (.a 1 5 0) ∧ .makeCmd 5 (.a 1 5 0) ∈ s''.txQueue ∧
      nextMade (markPath (s''.record 5).path (.a 1 5 0) .unmade) = none ∧ (s''.record 5).stamp = none :=
  ⟨setting5 .made .inFlight [], setting5 .made .inFlight [.makeCmd 5 (.b 0 1 1)], setting5 .inFlight .unmade [.makeCmd 5 (.a 1 5 0)], by
    simp only [List.forall_mem_cons, State.OrderFree]; decide +kernel⟩

/-- `s` with record 27 at the head of the waiters for the operate slot that record 5 holds. -/
def waitedFor (s : State) : State :=
  withRec { s with operateSlots := #v[some 2, some 9, some 33, some 5], waitList := [27, 12] } 27
    { CallRecord.blank .reserved with path := outgoingPath 27 140 }

theorem waitedFor_awaited (s : State) : (waitedFor s).SlotAwaited 5 3 27 (.a 4 12 1) [12] := by
  unfold State.SlotAwaited
  have h : (waitedFor s).record 27 = { CallRecord.blank .reserved with path := outgoingPath 27 140 } := by
    simp [waitedFor, withRec, State.record, State.setRecord]
  rw [h]
  refine ⟨rfl, ?_, rfl, by decide, by decide +kernel⟩
  show ∀ m : Fin 4, m ≠ 3 → (#v[some 2, some 9, some 33, some 5] : Vector (Option Circuit) 4)[m] ≠ some 5 ∧
    (#v[some 2, some 9, some 33, some 5] : Vector (Option Circuit) 4)[m] ≠ none
  decide

theorem waitedFor_awaits {s : State} {k : JobKind} {xp : Crosspoint} {x : Circuit} {rest : List Outstanding}
    (h : s.awaits k xp x rest) : (waitedFor s).awaits k xp x rest := h

theorem witness_ReleaseSettingWithdrawsOrWaits_waited : ∃ s : State, s.OrderFree 3 ∧ (s.record 5).state = .setting ∧
    inFlightPoint (s.record 5).path = some (.b 0 1 1) ∧ .makeCmd 5 (.b 0 1 1) ∈ s.txQueue ∧ s.SlotAwaited 5 3 27 (.a 4 12 1) [12] ∧
    nextMade (markPath (s.record 5).path (.b 0 1 1) .unmade) = some (.a 1 5 0) :=
  ⟨waitedFor (setting5 .made .inFlight [.makeCmd 5 (.b 0 1 1)]), by unfold State.OrderFree; decide +kernel, by decide +kernel,
    by decide +kernel, by decide +kernel, waitedFor_awaited _, by decide +kernel⟩

/-- A coin record that owes 127 pulses on line 140, whose pending count is given. -/
def owing (pulses : Nat) : State :=
  withRec (withRec (base.modifyLine 140 fun e => { e with pulses := pulses }) 26
      { CallRecord.blank .answered with coin := true, calling := some 140, owed := 127, grace := some 1 }) 55
      { CallRecord.blank .free with coin := true }

theorem witness_AddCreditSettles : ∃ s s' : State, (∀ u ∈ [s, s'], u.OrderFree 3 ∧ (u.record 0).coin = false ∧ (u.record 55).coin = true ∧
    (u.record 55).state = .free ∧ (u.record 26).coin = true ∧ (u.record 26).state = .answered ∧ (u.record 26).calling = some 140) ∧
    (s.line 140).pulses + min (s.record 26).owed 255 = 65535 ∧
    (s'.line 140).pulses + min (s'.record 26).owed 255 = 65536 ∧ (s'.line 140).pulses ≤ 65535 :=
  ⟨owing 65408, owing 65409, by unfold State.OrderFree; simp only [List.forall_mem_cons]; decide +kernel⟩

theorem witness_SetClassSetsClass : ∃ s : State, s.OrderFree 3 ∧ (s.line 511).busy ≠ none ∧ (s.line 0).busy = none :=
  ⟨base.setBusy (some 511) (some 5), by unfold State.OrderFree; decide +kernel⟩

theorem witness_SetMeterChecksAndWaits : ∃ s : State, s.OrderFree 3 ∧ (s.line 0).cls ≠ .spare ∧
    ((s.line 1).cls = .spare ∧ (s.line 1).pulses ≠ 0) ∧ ((s.line 511).cls = .spare ∧ (s.line 511).pulses = 0) ∧
    (16959 : Word).toNat + 65536 * (15 : Word).toNat = 999999 :=
  ⟨(withClass (withClass base 1 .spare) 511 .spare).modifyLine 1 fun e => { e with pulses := 1 }, by
    unfold State.OrderFree; decide +kernel⟩

theorem witness_SetTimeSetsClock : base.OrderFree 3 ∧ (10079 : Word).toNat < 10080 ∧ (59 : Word).toNat < 60 ∧ 10080 ≤ (10080 : Word).toNat ∧
    60 ≤ (60 : Word).toNat := ⟨base_orderFree 3, by decide⟩

theorem witness_LoadCalendarSetsEntry : base.OrderFree 3 ∧ (10079 : Word).toNat < 10080 ∧
    (10080 ≤ (0xFFFE : Word).toNat ∧ (0xFFFE : Word) ≠ 0xFFFF) ∧ (15 : Word).toNat = (15 : Fin 16).val := ⟨base_orderFree 3, by decide⟩

theorem witness_LoadTariffDerivesIncrement : base.OrderFree 3 ∧ (6000 : Word).toNat ≤ 6000 ∧ (7 : Word).toNat = (7 : DistBand).val ∧
    (0x33 : Word).toNat = (3 : TimeBand).val + 16 * (3 : Fin 4).val ∧ (4 : Word) &&& 0xFFCC ≠ 0 := ⟨base_orderFree 3, by decide⟩

/-- The last crosspoints of the two stages, a line's position too high, and an unknown stage. -/
theorem witness_FaultOrders : ∀ s ∈ [base, fullQueues], s.phase = .ready ∧
    (∃ g p k : Nat, (0x0F1F : Word).toNat = 256 * g + p ∧ p < 256 ∧ (9 : Word).toNat = k ∧ g < 16 ∧ p < 32 ∧ k < 10) ∧
    (∃ k g j : Nat, (0x090F : Word).toNat = 256 * k + g ∧ g < 256 ∧ (7 : Word).toNat = j ∧ k < 10 ∧ g < 16 ∧ j < 8) ∧
    (∃ g p : Nat, (0x0120 : Word).toNat = 256 * g + p ∧ p < 256 ∧ ¬ p < 32) ∧ 3 ≤ (3 : Word).toNat := by
  simp only [List.forall_mem_cons]
  exact ⟨⟨rfl, ⟨15, 31, 9, by decide⟩, ⟨9, 15, 7, by decide⟩, ⟨1, 32, by decide⟩, by decide⟩,
    ⟨rfl, ⟨15, 31, 9, by decide⟩, ⟨9, 15, 7, by decide⟩, ⟨1, 32, by decide⟩, by decide⟩, fun _ h => by cases h⟩

theorem witness_FaultOrders_state : base.OrderFree 3 ∧ State.OrderFree { base with faults := fullQueues.faults } 3 :=
  ⟨base_orderFree 3, base_orderFree 3⟩

theorem witness_ServiceOrders : base.OrderFree 3 ∧ (15 : Word).toNat = (15 : LineGroup).val ∧ (0x8FF9 : Word).toNat % 16 = (9 : LinkNo).val ∧
    10 ≤ (0x800A : Word).toNat % 16 ∧ (55 : Word).toNat = (55 : Circuit).val ∧ 56 ≤ (56 : Word).toNat := ⟨base_orderFree 3, by decide⟩

/-! ## Witnesses: the ends of sequences -/

/-- A result write at its end, for the last slot. -/
def resultEnd (q : List OrderEntry) : State :=
  { base with owner := .resultWrite, results := [⟨31, .done, none⟩], orderQueue := q, dispatcher := .waiting 31 }

theorem witness_ResultWriteFreesSlot : ∃ s s' : State, (s.phase ≠ .held ∧ s.StoreInv ∧ s.owner = .resultWrite ∧
      s.results = [⟨31, .done, none⟩] ∧ s.orderQueue = [] ∧ s.cycles = []) ∧
    s'.phase = .ready ∧ s'.owner = .resultWrite ∧ s'.results = [⟨31, .done, none⟩] ∧ s'.orderQueue = [⟨9, 14, 0, 0, 0⟩] ∧
    s'.dispatcher = .waiting 31 ∧ 13 < (14 : BitVec 5).toNat ∧ s'.cycles = [] ∧ s'.stretch = .none :=
  ⟨resultEnd [], resultEnd [⟨9, 14, 0, 0, 0⟩], by unfold State.StoreInv; decide +kernel⟩

theorem witness_ResultWriteFreesSlot_stretched : ∃ s : State, s.phase = .ready ∧ s.owner = .resultWrite ∧
    s.results = [⟨31, .done, none⟩] ∧ s.orderQueue = ⟨9, 0, 0, 0, 0⟩ :: List.replicate 7 ⟨10, 0, 0, 0, 0⟩ ∧ s.dispatcher = .waiting 31 ∧
    s.stretch = .held 1 ∧ s.cycles = [.write 0xF003 1] ∧ s.map.region 0xF003 = .order 3 ∧ (1 : Word).getLsbD 15 = false ∧
    (s.slot (offsetSlot 3)).state = .idle ∧ offsetSlot 3 ≠ 9 ∧ s.grantCount < 8 :=
  ⟨{ resultEnd (⟨9, 0, 0, 0, 0⟩ :: List.replicate 7 ⟨10, 0, 0, 0, 0⟩) with
      stretch := .held 1, cycles := [.write 0xF003 1], grantCount := 7 }, by decide +kernel⟩

theorem witness_TicketBurstFillsRing : ∃ (s : State) (k : Ticket) (rest : List Ticket), s.phase = .ready ∧ s.StoreInv ∧ s.MapInv ∧
    s.TicketInv ∧ s.owner = .ticketBurst ∧ s.holdQueue = k :: rest ∧ s.cycles = [] ∧ s.writeIndex = 511 ∧
    s.writeIndex < 16 * 2 ^ s.map.code ∧ s.closingWaiters ≠ [] :=
  ⟨burst fullTickets, _, _, rfl, by unfold State.StoreInv; decide +kernel, fun _ => by decide +kernel,
    ⟨fullTickets_inv.held, fullTickets_inv.waiting, fullTickets_inv.stamps, fullTickets_inv.incoming⟩, rfl, rfl, rfl, rfl,
    by decide +kernel⟩

theorem witness_SetMeterWritesRecord : ∃ (s : State) (j : SetMeterJob), s.phase = .ready ∧ s.StoreInv ∧ s.MapInv ∧ s.owner = .setMeter ∧
    s.setMeterJob = some j ∧ j.value ≤ 999999 ∧ s.cycles = [] :=
  ⟨{ base with owner := .setMeter, setMeterJob := some ⟨31, 511, 999999⟩ }, ⟨31, 511, 999999⟩, by
    unfold State.StoreInv State.MapInv; decide +kernel⟩

theorem witness_PostingAddsPulses : ∃ (s : State) (p : Posting) (c w : Nat), s.phase = .ready ∧ s.StoreInv ∧ s.MapInv ∧
    s.owner = .posting p ∧ s.cycles = [] ∧ p.pulses ≤ 65535 ∧ c ≤ 999999 ∧ w ≤ 255 ∧
    (s.readMem (s.map.meter + BitVec.ofNat 16 (2 * p.line.val))).toNat = c % 65536 ∧
    (s.readMem (s.map.meter + BitVec.ofNat 16 (2 * p.line.val) + 1)).toNat = 256 * w + c / 65536 :=
  ⟨{ (base.writeMem 0xF7FE 16959).writeMem 0xF7FF 0xFF0F with owner := .posting ⟨511, 65535, .retry⟩ }, ⟨511, 65535, .retry⟩, 999999, 255,
    by unfold State.StoreInv State.MapInv; decide +kernel⟩

theorem witness_PostingFaultsFound : ∃ s s' : State, (s.phase = .ready ∧ s.owner = .posting ⟨511, 1, .retry⟩ ∧ s.cycles = [] ∧
      (s.line 511).fault = .none ∧ s.meterReadsValid 511 = false ∧ s.results = [] ∧ s.holdQueue = [] ∧ s.burst = .idle ∧
      s.setMeterJob = none ∧ (s.line 511).pulses ≠ 0 ∧ s.readPair ≠ some 511) ∧
    s'.phase = .ready ∧ s'.owner = .posting ⟨511, 1, .first⟩ ∧ s'.cycles = [] ∧ (s'.line 511).fault = .saturated ∧
      s'.meterReadsValid 511 = false :=
  ⟨{ (base.writeMem 0xF7FF 0x0010).modifyLine 511 fun e => { e with pulses := 1 } with owner := .posting ⟨511, 1, .retry⟩ },
    { (base.writeMem 0xF7FF 0x0010).modifyLine 511 fun e => { e with pulses := 1, fault := .saturated } with
      owner := .posting ⟨511, 1, .first⟩ }, by decide +kernel⟩

theorem witness_PostingFaultsFound_retryWaits : ∃ (result ticket meter paired processor : State) (j : SetMeterJob),
    (∀ s ∈ [result, ticket, meter, paired, processor], s.phase = .ready ∧ s.owner = .posting ⟨511, 1, .first⟩ ∧ s.burst = .idle) ∧
    (result.cycles = [] ∧ result.results ≠ []) ∧
    (ticket.cycles = [] ∧ ticket.results = [] ∧ ticket.holdQueue ≠ [] ∧ ticket.ringFull = false) ∧
    (meter.cycles = [] ∧ meter.results = [] ∧ meter.holdQueue = [] ∧ meter.setMeterJob = some j ∧ meter.readPair ≠ some j.line) ∧
    (paired.cycles = [] ∧ paired.readPair = some 511) ∧
    processor.cycles = [.read 0 false] ∧ processor.stretch = .none ∧ processor.map.region 0 = .outside ∧ processor.grantCount < 8 :=
  ⟨{ base with owner := .posting ⟨511, 1, .first⟩, results := [⟨3, .done, none⟩] },
    { ring 3 5 false 210 1 with owner := .posting ⟨511, 1, .first⟩ },
    { base with owner := .posting ⟨511, 1, .first⟩, setMeterJob := some ⟨3, 37, 0⟩ },
    { base with owner := .posting ⟨511, 1, .first⟩, readPair := some 511 },
    { base with owner := .posting ⟨511, 1, .first⟩, cycles := [.read 0 false], grantCount := 7 }, ⟨3, 37, 0⟩, by
      simp only [List.forall_mem_cons]; decide +kernel⟩

/-! ## Witnesses: time and supervision -/

theorem witness_TickMetersOrdinaryCalls : ∃ (s : State) (x : Circuit) (l : Line), s.phase ≠ .held ∧ (s.record x).state = .answered ∧
    x.val < 48 ∧ (s.record x).coin = false ∧ (s.record x).grace = none ∧ (s.record x).calling = some l ∧ (s.line l).pulses < 65535 ∧
    (∀ y : Circuit, y ≠ x → (s.record y).state = .answered → y.val < 48 → (s.record y).calling ≠ some l) ∧ s.tenths = 9 ∧ s.second = 59 ∧
    s.cycles = [] :=
  ⟨withRec { base.modifyLine 37 fun e => { e with pulses := 65534 } with tenths := 9, second := 59 } 47
      { CallRecord.blank .answered with calling := some 37, acc := 65535, paid := 65535, duration := 16777215 }, 47, 37, by decide +kernel⟩

/-- The last tenth of minute 4890 with band 3 set for minute 4891. -/
def bandDue : State :=
  { base with tenths := 9, second := 59, calendar := base.calendar.set 5 { valid := true, minute := 4891, band := 3 } }

theorem witness_TickMetersOrdinaryCalls_band : bandDue.phase ≠ .held ∧ 9 ≤ bandDue.tenths ∧ 59 ≤ bandDue.second ∧ bandDue.cycles = [] ∧
    (after .meteringTick bandDue).band ≠ bandDue.band ∧ (after .meteringTick bandDue).reports.getLast? = some (.bandChange 3) := by
  decide +kernel

theorem witness_TickMetersOrdinaryCalls_saturated : ∃ (s : State) (x : Circuit) (l : Line), s.phase ≠ .held ∧
    (s.record x).state = .answered ∧ x.val < 48 ∧ (s.record x).coin = false ∧ (s.record x).calling = some l ∧
    (s.line l).pulses = 65535 ∧ (∀ y : Circuit, y ≠ x → (s.record y).state = .answered → y.val < 48 → (s.record y).calling ≠ some l) ∧
    65536 ≤ (s.record x).acc + (s.tariffEntry (s.record x).distBand s.band).increment ∧
    ∀ y : Circuit, (s.record y).state = .answered → y.val < 48 → (s.record y).calling ≠ some 36 :=
  ⟨withRec (withTariff (base.modifyLine 37 fun e => { e with pulses := 65535 }) 3 0 72 3 910) 47
      { CallRecord.blank .answered with calling := some 37, acc := 65535, distBand := 3 }, 47, 37, by decide +kernel⟩

/-- A coin record of circuit 47. -/
def coin47 (acc credit owed : Nat) (grace : Option Nat) (path : Path) : State :=
  withRec (withTariff base 3 0 72 1 910) 47
    { CallRecord.blank .answered with
      calling := some 140, distBand := 3, coin := true, acc := acc, credit := credit, owed := owed, grace := grace, path := path }

theorem witness_TickMetersCoinCalls : ∃ quiet pays exhausted owes owesAgain expires : State,
    (∀ s ∈ [quiet, pays, exhausted, owes, owesAgain, expires], s.phase ≠ .held ∧ (s.record 47).state = .answered ∧
      (s.record 47).coin = true ∧ (s.record 47).grace ≠ some 0 ∧ (0 < (s.record 47).credit → (s.record 47).grace = none) ∧
      (s.record 47).paid ≤ 65535 ∧ (s.record 47).owed ≤ 127 ∧
      (s.record 47).acc + (s.tariffEntry (s.record 47).distBand s.band).increment =
        if (s.record 47).acc = 64625 then 65535 else 65536) ∧
    ((quiet.record 47).acc = 64625 ∧ (quiet.record 47).grace = some 100) ∧
    ((pays.record 47).credit = 2 ∧ (pays.record 47).grace = none) ∧ ((exhausted.record 47).credit = 1 ∧ (exhausted.record 47).grace = none) ∧
    ((owes.record 47).credit = 0 ∧ (owes.record 47).grace = none ∧ (owes.record 47).owed = 127) ∧
    ((owesAgain.record 47).credit = 0 ∧ (owesAgain.record 47).grace = some 2) ∧
    (expires.record 47).credit = 0 ∧ (expires.record 47).grace = some 1 ∧ nextMade (expires.record 47).path = some (.a 1 5 1) :=
  ⟨coin47 64625 0 0 (some 100) [], coin47 64626 2 0 none [], coin47 64626 1 0 none [], coin47 64626 0 127 none [],
    coin47 64626 0 1 (some 2) [], coin47 64626 0 1 (some 1) [⟨.a 1 5 1, .made⟩], by
    simp only [List.forall_mem_cons]; and_intros <;> decide +kernel⟩

theorem witness_MinuteRolloverReevaluates : ∃ s : State, s.phase ≠ .held ∧ s.weekMinute = 10079 :=
  ⟨{ base with weekMinute := 10079 }, by decide +kernel⟩

/-- Counts of 8 toward an appearance and 23 toward a disappearance: at this scan they are 9 and 24, and nothing is recognised. -/
theorem witness_ScanFiltersPoints : ∃ (s : State) (raw : BitVec 112), s.phase ≠ .held ∧ s.cycles = [] ∧ s.points[11] = ⟨false, some 8⟩ ∧
    s.points[10] = ⟨true, some 23⟩ ∧
    ∀ p : Point,
      (let st := s.points[p]
      let now := raw.getLsbD p.val
      let count := match st.count with | none => 0 | some n => n + 1
      if now = st.present then ({ present := now, count := none } : PointState)
      else if (if now then 10 else 25) ≤ count then { present := now, count := none }
      else { present := st.present, count := some count }).present = (s.points[p]).present :=
  ⟨(base.setPoint 11 ⟨false, some 8⟩).setPoint 10 ⟨true, some 23⟩, 0x800, by decide +kernel⟩

/-- Counts of 9 toward an appearance of F 55 and 24 toward a disappearance of B 5: in each scan one change is recognised. -/
theorem witness_ScanFiltersPoints_recognised : ∃ (s s' : State) (raw raw' : BitVec 112) (q q' : Point),
    ∀ e ∈ [(s.points, raw, q), (s'.points, raw', q')], s.phase ≠ .held ∧ s.cycles = [] ∧ s'.phase ≠ .held ∧ s'.cycles = [] ∧
    ∀ p : Point,
      (let st := e.1[p]
      let now := e.2.1.getLsbD p.val
      let count := match st.count with | none => 0 | some n => n + 1
      if now = st.present then ({ present := now, count := none } : PointState)
      else if (if now then 10 else 25) ≤ count then { present := now, count := none }
      else { present := st.present, count := some count }).present = (if p = e.2.2 then !(e.1[p]).present else (e.1[p]).present) :=
  ⟨base.setPoint 110 ⟨false, some 9⟩, base.setPoint 11 ⟨true, some 24⟩, 1 <<< 110, 0, 110, 11, by
    simp only [List.forall_mem_cons]; exact ⟨by decide +kernel, by decide +kernel, fun _ h => by cases h⟩⟩

theorem witness_SupervisionChangesTaken : ∃ s : State, s.phase ≠ .held ∧ s.cycles = [] ∧ (s.record 48).state = .free ∧
    (s.record 47).state = .free ∧ (s.record 55).state = .seized ∧
    ((s.record 5).state = .answered ∧ nextMade (s.record 5).path = some (.b 1 9 1)) ∧
    (s.record 6).state = .ringing ∧ (s.record 6).settle = none ∧ nextMade (s.record 6).path = some (.b 1 9 1) ∧
    (s.record 7).state = .ringing ∧ (s.record 7).settle ≠ none :=
  ⟨withRec (withRec (withRec (withRec base 55 (CallRecord.blank .seized)) 5 (call5 .answered .made .made .made .made)) 6
      (call5 .ringing .made .made .made .made)) 7 { call5 .ringing .made .made .made .made with settle := some 1 }, by decide +kernel⟩

theorem witness_BAppearsAnswers : ∃ s : State, s.phase ≠ .held ∧ s.cycles = [] ∧
    ((s.record 48).state = .ringing ∧ (s.record 48).settle = none) ∧
    ((s.record 47).state = .ringing ∧ (s.record 47).settle = none ∧ (s.record 47).coin = false ∧ (s.record 47).calling = some 37 ∧
      (s.record 47).paid + (s.tariffEntry (s.record 47).distBand s.band).initial ≤ 65535 ∧
      (s.line 37).pulses + (s.tariffEntry (s.record 47).distBand s.band).initial ≤ 65535) ∧
    ((s.record 5).state = .answered ∧ (s.record 5).calledClear ≠ none) ∧
    ((s.record 6).state = .ringing → (s.record 6).settle ≠ none) ∧ ((s.record 6).state = .answered → (s.record 6).calledClear = none) :=
  ⟨withRec (withRec (withRec (withTariff (base.modifyLine 37 fun e => { e with pulses := 65532 }) 3 0 72 3 910) 48
      (CallRecord.blank .ringing)) 47 { CallRecord.blank .ringing with calling := some 37, distBand := 3 }) 5
      { call5 .answered .made .made .made .made with calledClear := some 1 }, by decide +kernel⟩

theorem witness_BAppearsAnswers_saturated : ∃ s : State, s.phase ≠ .held ∧ s.cycles = [] ∧ (s.record 47).state = .ringing ∧
    (s.record 47).settle = none ∧ (s.record 47).coin = false ∧ (s.record 47).calling = some 37 ∧
    (s.record 47).paid + (s.tariffEntry (s.record 47).distBand s.band).initial ≤ 65535 ∧ (s.line 37).pulses ≤ 65535 ∧
    65535 < (s.line 37).pulses + (s.tariffEntry (s.record 47).distBand s.band).initial :=
  ⟨withRec (withTariff (base.modifyLine 37 fun e => { e with pulses := 65534 }) 3 0 72 3 910) 47
      { CallRecord.blank .ringing with calling := some 37, distBand := 3 }, by decide +kernel⟩

/-- Credit above, equal to and short of the initial pulses, and no pulse. -/
def coinAnswer (initial credit : Nat) : State :=
  withRec (withTariff { base with reports := List.replicate 30 (.seize 50) } 3 0 72 initial 910) 0
    { CallRecord.blank .ringing with calling := some 140, distBand := 3, coin := true, credit := credit }

theorem witness_CoinAnswerDrawsCredit : ∀ s ∈ [coinAnswer 3 4, coinAnswer 3 3, coinAnswer 3 2, coinAnswer 1 0, coinAnswer 0 0],
    s.phase ≠ .held ∧ s.cycles = [] ∧ (s.record 0).state = .ringing ∧ (s.record 0).settle = none ∧ (s.record 0).coin = true ∧
    (s.record 0).owed = 0 ∧ (s.record 0).grace = none ∧ (s.record 0).calling = some 140 ∧ s.reports.length + 2 ≤ 32 ∧
    (s.tariffEntry (s.record 0).distBand s.band).initial ≤ 3 ∧
    (s.record 0).paid + (s.tariffEntry (s.record 0).distBand s.band).initial ≤ 65535 ∧
    (s.line 140).pulses + (s.tariffEntry (s.record 0).distBand s.band).initial ≤ 65535 := by
  simp only [List.forall_mem_cons]; and_intros <;> decide +kernel

/-- Record 5 in RINGING inside its settle window, its points as given. -/
def settling (f b : Bool) : State :=
  withPoints (withRec base 5 { call5 .ringing .made .made .made .made with settle := some 0 }) 5 f b

theorem witness_RecordTimersExpire_settle : (∀ s ∈ [settling false false, settling true true, settling true false],
      s.phase ≠ .held ∧ s.cycles = [] ∧ (s.record 5).state = .ringing ∧ (s.record 5).settle = some 0) ∧
    ((settling false false).points[fPoint 5].present = false ∧ nextMade ((settling false false).record 5).path = some (.b 1 9 1)) ∧
    ((settling true true).points[fPoint 5].present = true ∧ (settling true true).points[bPoint 5] = ⟨true, none⟩ ∧
      ((settling true true).tariffEntry ((settling true true).record 5).distBand (settling true true).band).initial = 0) ∧
    (settling true false).points[fPoint 5].present = true ∧ (settling true false).points[bPoint 5].present = false := by
  simp only [List.forall_mem_cons]; decide +kernel

theorem witness_RecordTimersExpire : ∃ s : State, s.phase ≠ .held ∧ s.cycles = [] ∧
    ((s.record 5).state = .answered ∧ nextMade (s.record 5).path = some (.b 1 9 1) ∧ (s.record 5).grace ≠ none ∧
      (s.record 5).calledClear ≠ none) ∧
    ((s.record 48).state = .guarded ∧ (s.record 48).guardTimer = some 0 ∧ s.points[fPoint 48].present = true) ∧
    (s.record 47).state = .guarded ∧ (s.record 47).guardTimer = some 0 :=
  ⟨withPoints (withRec (withRec (withRec base 5
      { call5 .answered .made .made .made .made with coin := true, grace := some 1, calledClear := some 0 }) 48
      { CallRecord.blank .guarded with guardTimer := some 0 }) 47 { CallRecord.blank .guarded with guardTimer := some 0 }) 48 true false, by
    decide +kernel⟩

/-! ## Witnesses: the Matrix Port -/

theorem witness_CommandSentStartsTimer : ∃ (s : State) (c : PortCommand), s.phase ≠ .held ∧ s.onWire = some c :=
  ⟨{ base with onWire := some .clearAll, txQueue := [.payTone 55] }, .clearAll, by decide +kernel⟩

theorem witness_UnmatchedResponsesDiscarded : ∃ s : State, ∀ o ∈ s.outstanding, o.xp = Crosspoint.b 9 15 7 → o.kind ≠ .makeJob :=
  ⟨{ base with outstanding := [⟨.breakJob, .b 9 15 7, 5, 1⟩] }, by decide +kernel⟩

/-- Words that R174 discards: bit 3 set at stage 1, a link number of 10 at either stage, even parity. -/
theorem witness_UnmatchedResponsesDiscarded_words : ∃ a b c d : Response,
    (a.body.getLsbD 13 = true ∧ a.body.getLsbD 3 = true) ∧ (b.body.getLsbD 13 = true ∧ b.body.toNat / 256 % 16 = 10) ∧
    (c.body.getLsbD 13 = false ∧ c.body.toNat % 16 = 10) ∧
    ∀ fail brk : Bool, fail = brk →
      (((List.range 14).filter fun n => d.body.getLsbD n).length + fail.toNat + brk.toNat + d.parity.toNat) % 2 = 0 :=
  ⟨⟨0x2008, true, true⟩, ⟨0x2A00, true, true⟩, ⟨0x000A, true, true⟩, ⟨0x0250, true, true⟩, by decide +kernel⟩

/-- Record 5 in SETTING with one MAKE outstanding. -/
def making (s : State) (xp : Crosspoint) (r : CallRecord) : State :=
  withRec { s with outstanding := [⟨.makeJob, xp, 5, 1⟩], operateSlots := s.operateSlots.set 3 (some 5) } 5 r

theorem making_awaits (s : State) (xp : Crosspoint) (r : CallRecord) : (making s xp r).awaits .makeJob xp 5 [] :=
  ⟨[], ⟨.makeJob, xp, 5, 1⟩, [], rfl, rfl, rfl, rfl, (by intro q h; cases h), rfl⟩

theorem witness_MakeDoneContinuesOrConnects : ∃ s s' : State,
    (s.phase ≠ .held ∧ s.cycles = [] ∧ s.awaits .makeJob (.a 1 5 0) 5 [] ∧ (s.record 5).state = .setting ∧
      (s.record 5).releasePending = false ∧
      nextUnmade ((s.responded 5 (.a 1 5 0) .made []).record 5).path = some (.b 0 1 1)) ∧
    s'.phase ≠ .held ∧ s'.cycles = [] ∧ s'.awaits .makeJob (.b 1 9 1) 5 [] ∧ (s'.record 5).state = .setting ∧
      (s'.record 5).releasePending = false ∧ nextUnmade ((s'.responded 5 (.b 1 9 1) .made []).record 5).path = none ∧ s'.waitList = [] :=
  ⟨making base (.a 1 5 0) (call5 .setting .inFlight .unmade .unmade .unmade), making base (.b 1 9 1) (call5 .setting .made .made .made .inFlight),
    ⟨by decide +kernel, by decide +kernel, making_awaits _ _ _, by decide +kernel, by decide +kernel, by decide +kernel⟩, by decide +kernel,
    by decide +kernel, making_awaits _ _ _, by decide +kernel⟩

/-- The last MAKE of record 5, with record 27 waiting for a slot. -/
def lastMakeWaited : State :=
  making (withRec { base with operateSlots := #v[some 2, some 9, some 33, none], waitList := [27, 12] } 27
    { CallRecord.blank .reserved with path := outgoingPath 27 140 }) (.b 1 9 1) (call5 .setting .made .made .made .inFlight)

theorem witness_MakeDoneContinuesOrConnects_waited : ∃ (s : State) (yp : Crosspoint), s.phase ≠ .held ∧ s.cycles = [] ∧
    s.awaits .makeJob (.b 1 9 1) 5 [] ∧ (s.record 5).state = .setting ∧ (s.record 5).releasePending = false ∧
    nextUnmade (markPath (s.record 5).path (.b 1 9 1) .made) = none ∧ s.SlotAwaited 5 3 27 yp [12] :=
  ⟨lastMakeWaited, .a 4 12 1, by decide +kernel, by decide +kernel, making_awaits _ _ _, by unfold State.SlotAwaited; decide +kernel⟩

theorem witness_MakeDoneContinuesOrConnects_release : ∀ s ∈ [
      making base (.b 0 1 1) { call5 .setting .made .inFlight .unmade .unmade with releasePending := true },
      waitedFor (making base (.b 0 1 1) { call5 .setting .made .inFlight .unmade .unmade with releasePending := true })],
    s.phase ≠ .held ∧ s.cycles = [] ∧ s.awaits .makeJob (.b 0 1 1) 5 [] ∧ (s.record 5).state = .setting ∧
    (s.record 5).releasePending = true ∧ nextMade ((s.responded 5 (.b 0 1 1) .made []).record 5).path = some (.b 0 1 1) := by
  simp only [List.forall_mem_cons]
  exact ⟨⟨by decide +kernel, by decide +kernel, making_awaits _ _ _, by decide +kernel⟩,
    ⟨by decide +kernel, by decide +kernel, waitedFor_awaits (making_awaits _ _ _), by decide +kernel⟩, fun _ h => by cases h⟩

theorem witness_MakeDoneContinuesOrConnects_released :
    (making base (.b 0 1 1) { call5 .setting .made .inFlight .unmade .unmade with releasePending := true }).waitList = [] ∧
    ∀ s, (waitedFor s).SlotAwaited 5 3 27 (.a 4 12 1) [12] := ⟨by decide +kernel, waitedFor_awaited⟩

/-- No circuit is in service, so no re-hunt succeeds; a MAKE of record 5 is outstanding. -/
def noneInService (r : CallRecord) : State :=
  making { base with circuitInService := Vector.replicate 56 false } (.b 0 1 1) r

theorem noneInService_noRehunt (r : CallRecord) (c : FaultCause) (m : Mark) :
    (((noneInService r).responded 5 (.b 0 1 1) m []).makeFaultRecorded (.b 0 1 1) c).noRehunt 5 := by
  refine Or.inr (Or.inr (Or.inl ⟨by decide, ?_⟩))
  intro la lb c' _ _ h
  have hs := h.2.1.2.1
  have he : (((noneInService r).responded 5 (.b 0 1 1) m []).makeFaultRecorded (.b 0 1 1) c).circuitInService =
      Vector.replicate 56 false := by
    unfold State.makeFaultRecorded State.linkTakenOut State.report
    (repeat' split) <;> rfl
  rw [he] at hs
  simp at hs

theorem witness_MakeFailureEndsConnect : ∃ s s' : State,
    (s.phase ≠ .held ∧ s.cycles = [] ∧ s.awaits .makeJob (.b 0 1 1) 5 [] ∧ (s.record 5).state = .setting ∧ s.waitList = [] ∧
      (s.record 5).releasePending = false ∧ ((s.responded 5 (.b 0 1 1) .unmade []).makeFaultRecorded (.b 0 1 1) .fail).noRehunt 5 ∧
      nextMade (((s.responded 5 (.b 0 1 1) .unmade []).makeFaultRecorded (.b 0 1 1) .fail).record 5).path = some (.a 1 5 0)) ∧
    s'.phase ≠ .held ∧ s'.cycles = [] ∧ s'.awaits .makeJob (.b 0 1 1) 5 [] ∧ (s'.record 5).state = .setting ∧ s'.waitList = [] ∧
      (s'.record 5).releasePending = true ∧
      nextMade (((s'.responded 5 (.b 0 1 1) .unmade []).makeFaultRecorded (.b 0 1 1) .fail).record 5).path = none ∧
      (s'.record 5).stamp = none :=
  ⟨noneInService (call5 .setting .made .inFlight .unmade .unmade),
    noneInService { call5 .setting .unmade .inFlight .unmade .unmade with releasePending := true },
    ⟨by decide +kernel, by decide +kernel, making_awaits _ _ _, by decide +kernel, by decide +kernel, by decide +kernel,
      noneInService_noRehunt _ _ _, by decide +kernel⟩,
    by decide +kernel, by decide +kernel, making_awaits _ _ _, by decide +kernel⟩

theorem witness_MakeFailureEndsConnect_waited : ∀ s ∈ [
      waitedFor (noneInService { call5 .setting .made .inFlight .unmade .unmade with releasePending := true }),
      waitedFor (noneInService { call5 .setting .unmade .inFlight .unmade .unmade with releasePending := true })],
    s.phase ≠ .held ∧ s.cycles = [] ∧ s.awaits .makeJob (.b 0 1 1) 5 [] ∧ (s.record 5).state = .setting ∧
    s.SlotAwaited 5 3 27 (.a 4 12 1) [12] ∧ (s.record 5).releasePending = true ∧ (s.record 5).stamp = none := by
  simp only [List.forall_mem_cons]
  exact ⟨⟨by decide +kernel, by decide +kernel, waitedFor_awaits (making_awaits _ _ _), by decide +kernel, waitedFor_awaited _,
      by decide +kernel⟩,
    ⟨by decide +kernel, by decide +kernel, waitedFor_awaits (making_awaits _ _ _), by decide +kernel, waitedFor_awaited _,
      by decide +kernel⟩,
    fun _ h => by cases h⟩

/-- The failed MAKE of section 3.9, with the network of section 1.6 after its hunt. -/
def failed39 : State := making { network16 with cordPtr := 6 } (.b 0 1 1) (call5 .setting .made .inFlight .unmade .unmade)

/-- A failed MAKE of an outgoing call on junction 23, its group's pointer at 0. -/
def failed47 : State :=
  withRec { base with outstanding := [⟨.makeJob, .a 1 5 1, 47, 0⟩] } 47
    { CallRecord.blank .setting with
      calling := some 37, called := some (.junction 23), distBand := 7, path := [⟨.a 1 5 1, .inFlight⟩, ⟨.b 1 1 7, .unmade⟩] }

theorem witness_MakeFailureRehunts_local : ∃ (s : State) (n : Cord), s.phase ≠ .held ∧ s.cycles = [] ∧
    s.awaits .makeJob (.b 0 1 1) 5 [] ∧ (s.record 5).state = .setting ∧ (s.record 5).releasePending = false ∧
    (s.record 5).rehuntUsed = false ∧ (s.record 5).calling = some 37 ∧ (s.record 5).called = some (.line 300) ∧
    ((s.responded 5 (.b 0 1 1) .unmade []).makeFaultRecorded (.b 0 1 1) .fail).movesToCord 5 37 300 (s.cordPtr + n) ∧
    ∀ m, m < n → ¬ ((s.responded 5 (.b 0 1 1) .unmade []).makeFaultRecorded (.b 0 1 1) .fail).movesToCord 5 37 300 (s.cordPtr + m) :=
  ⟨failed39, 0, by decide +kernel, by decide +kernel, making_awaits _ _ _, by
    unfold State.movesToCord State.cordSuitable State.pathFree; and_intros <;> decide +kernel⟩

theorem witness_MakeFailureRehunts_outgoing : ∃ (s : State) (n : Fin 8), s.phase ≠ .held ∧ s.cycles = [] ∧
    s.awaits .makeJob (.a 1 5 1) 47 [] ∧ (s.record 47).state = .setting ∧ (s.record 47).releasePending = false ∧
    (s.record 47).rehuntUsed = false ∧ (s.record 47).calling = some 37 ∧ (s.record 47).called = some (.junction 23) ∧
    ((s.responded 47 (.a 1 5 1) .made []).makeFaultRecorded (.a 1 5 1) .makeTimeout).movesToJunction 47 37 2
      (s.groupPtrs[(2 : JunctionGroup)] + n) ∧
    ∀ m, m < n → ¬ ((s.responded 47 (.a 1 5 1) .made []).makeFaultRecorded (.a 1 5 1) .makeTimeout).movesToJunction 47 37 2
      (s.groupPtrs[(2 : JunctionGroup)] + m) :=
  ⟨failed47, 0, by decide +kernel, by decide +kernel, ⟨[], _, [], rfl, rfl, rfl, rfl, (by intro q h; cases h), rfl⟩, by
    unfold State.movesToJunction State.junctionSuitable State.pathFree; and_intros <;> decide +kernel⟩

/-- Record 5 in CLEARING with one BREAK outstanding. -/
def breaking (s : State) (xp : Crosspoint) (r : CallRecord) : State := withRec { s with outstanding := [⟨.breakJob, xp, 5, 1⟩] } 5 r

theorem breaking_awaits (s : State) (xp : Crosspoint) (r : CallRecord) : (breaking s xp r).awaits .breakJob xp 5 [] :=
  ⟨[], ⟨.breakJob, xp, 5, 1⟩, [], rfl, rfl, rfl, rfl, (by intro q h; cases h), rfl⟩

theorem witness_BreakGoesOn : ∃ s s' : State,
    (s.phase ≠ .held ∧ s.cycles = [] ∧ s.awaits .breakJob (.b 0 1 1) 5 [] ∧ (s.record 5).state = .clearing ∧
      nextMade ((s.responded 5 (.b 0 1 1) .unmade []).record 5).path = some (.a 1 5 0)) ∧
    s'.phase ≠ .held ∧ s'.cycles = [] ∧ s'.awaits .breakJob (.b 0 1 1) 5 [] ∧ (s'.record 5).state = .clearing ∧
      s'.faults.length = 32 ∧
      nextMade (((s'.responded 5 (.b 0 1 1) .unmade []).breakFaultRecorded (.b 0 1 1)).record 5).path = some (.a 1 5 0) :=
  ⟨breaking base (.b 0 1 1) (call5 .clearing .made .inFlight .unmade .unmade),
    breaking { base with faults := fullQueues.faults } (.b 0 1 1) (call5 .clearing .made .inFlight .unmade .unmade),
    ⟨by decide +kernel, by decide +kernel, breaking_awaits _ _ _, by decide +kernel⟩, by decide +kernel, by decide +kernel,
    breaking_awaits _ _ _, by decide +kernel⟩

/-- The last BREAK of a ticketed, answered call, with a number of tickets held. -/
def lastBreak (held : Nat) (ticket : Bool) : State :=
  breaking (ring 5 5 true 212 held) (.a 1 5 0)
    { call5 .clearing .inFlight .unmade .unmade .unmade with
      ticket := ticket, stamp := some { band := 2, time := some (10079, 59) }, duration := 16777215, cause := some .callerClear }

theorem witness_LastBreakFreesAndTickets : ∀ s ∈ [lastBreak 7 true, lastBreak 8 true, lastBreak 8 false],
    s.phase ≠ .held ∧ s.cycles = [] ∧ s.awaits .breakJob (.a 1 5 0) 5 [] ∧ (s.record 5).state = .clearing ∧
    nextMade ((s.responded 5 (.a 1 5 0) .unmade []).record 5).path = none ∧
    nextMade (((s.responded 5 (.a 1 5 0) .unmade []).breakFaultRecorded (.a 1 5 0)).record 5).path = none := by
  simp only [List.forall_mem_cons]
  exact ⟨⟨by decide +kernel, by decide +kernel, breaking_awaits _ _ _, by decide +kernel⟩,
    ⟨by decide +kernel, by decide +kernel, breaking_awaits _ _ _, by decide +kernel⟩,
    ⟨by decide +kernel, by decide +kernel, breaking_awaits _ _ _, by decide +kernel⟩, fun _ h => by cases h⟩

end Sys2Proof.Tests
end

section
/-!
PROOF. The crosspoints, links and terminals of a call's path (O26), and the orders on the fault table and on a line's meter
fault (O39).
-/

namespace Sys2Proof.Machine

/-! ## Giving an order -/

/-- An order command gives the entry it stands for (assumption log 5). -/
theorem exec_of_entryOf {s : State} {c : Instr} {e : OrderEntry} (he : s.entryOf c = some e) :
    exec c s = .next (s.giveOrder e) := by
  cases c <;> cases he <;> rfl

/-- An order answered in its own event, from what its rule makes of the state whose slot is IN FLIGHT (R148, R149). -/
theorem exec_order_answered {s u : State} {c : Instr} {e : OrderEntry} {code : ResultCode} {x : Option Circuit}
    (he : s.entryOf c = some e) (h : s.OrderFree e.slot) (hc : u.cycles = s.cycles)
    (hr : applyOrder e (s.setSlotState e.slot .inFlight) = .result code x (u.setSlotState e.slot .inFlight)) :
    ∃ t, exec c s = .next t ∧ State.ArbiterOnly (u.answered e.slot code x) t := by
  refine ⟨_, exec_of_entryOf he, ?_⟩
  rw [State.giveOrder_result s _ e code x h hr]
  obtain ⟨-, -, -, -, hcycles, -⟩ := h
  exact State.askPort_arbiterOnly (u.answered e.slot code x) (hc.trans hcycles)

/-! ## The crosspoint that an order names (R13, section 11.1) -/

/-- The two bytes of a word. -/
theorem bitField_bytes {w : Word} {hi lo : Nat} (hw : w.toNat = 256 * hi + lo) (hlo : lo < 256) :
    bitField w 8 8 = hi ∧ bitField w 0 8 = lo := by
  have hlt := w.isLt
  simp only [bitField, BitVec.extractLsb'_toNat, Nat.shiftRight_eq_div_pow]
  omega

theorem faultArg_stageA {w1 : Word} {g p : Nat} (w2 : Word) (hw : w1.toNat = 256 * g + p) (hp : p < 256) :
    faultArg 0 w1 w2 = crosspointA g p w2.toNat := by
  obtain ⟨hg, hp⟩ := bitField_bytes hw hp
  rw [← hg, ← hp]
  rfl

theorem faultArg_stageB {w1 : Word} {k g : Nat} (w2 : Word) (hw : w1.toNat = 256 * k + g) (hg : g < 256) :
    faultArg 1 w1 w2 = crosspointB k g w2.toNat := by
  obtain ⟨hk, hg⟩ := bitField_bytes hw hg
  rw [← hk, ← hg]
  rfl

/-- No stage but A and B names a crosspoint (R173). -/
theorem faultArg_unknown {w0 : Word} (w1 w2 : Word) (h : 2 ≤ w0.toNat) : faultArg w0 w1 w2 = none := by
  unfold faultArg
  split
  case h_1 h0 => omega
  case h_2 h1 => omega
  case h_3 => rfl

/-! ## The rules of the orders on faults -/

theorem applySetFault_none {w0 w1 w2 : Word} (s : State) (h : faultArg w0 w1 w2 = none) :
    applySetFault w0 w1 w2 s = .result .badArgument none s := by
  rw [applySetFault, h]

/-- SET FAULT on a crosspoint in the table (R13). -/
theorem applySetFault_listed {w0 w1 w2 : Word} {xp : Crosspoint} (s : State) (h : faultArg w0 w1 w2 = some xp)
    (hx : xp ∈ s.faults) : applySetFault w0 w1 w2 s = .result .done none s := by
  simp [applySetFault, h, State.faulty, hx]

/-- SET FAULT on a crosspoint not in a full table (R13). -/
theorem applySetFault_full {w0 w1 w2 : Word} {xp : Crosspoint} (s : State) (h : faultArg w0 w1 w2 = some xp)
    (hx : xp ∉ s.faults) (hf : 32 ≤ s.faults.length) : applySetFault w0 w1 w2 s = .result .tableFull none s := by
  simp [applySetFault, h, State.faulty, hx, Config.faultTableCapacity, Nat.not_lt.mpr hf]

/-- SET FAULT on a crosspoint not in a table with room (R13). -/
theorem applySetFault_room {w0 w1 w2 : Word} {xp : Crosspoint} (s : State) (h : faultArg w0 w1 w2 = some xp)
    (hx : xp ∉ s.faults) (hf : s.faults.length < 32) :
    applySetFault w0 w1 w2 s = .result .done none { s with faults := s.faults ++ [xp] } := by
  simp [applySetFault, h, State.faulty, hx, Config.faultTableCapacity, hf, State.addFault]

theorem applyClearFault_none {w0 w1 w2 : Word} (s : State) (h : faultArg w0 w1 w2 = none) :
    applyClearFault w0 w1 w2 s = .result .badArgument none s := by
  rw [applyClearFault, h]

theorem applyClearFault_some {w0 w1 w2 : Word} {xp : Crosspoint} (s : State) (h : faultArg w0 w1 w2 = some xp) :
    applyClearFault w0 w1 w2 s = .result .done none { s with faults := s.faults.filter fun y => y ≠ xp } := by
  rw [applyClearFault, h]

/-- CLEAR FAULT with a target other than the meter acts on the fault table (R14). -/
theorem applyOrder_clearFault {s : State} {i : OrderSlot} {w0 w1 w2 : Word} (u : State) (h : w0 ≠ 2) :
    applyOrder (s.orderEntry i 12 (some w0) (some w1) (some w2)) u = applyClearFault w0 w1 w2 u :=
  if_neg h

theorem lineArg_none {w : Word} (h : 512 ≤ w.toNat) : lineArg w = none := dif_neg (Nat.not_lt.mpr h)

theorem lineArg_line {w : Word} {l : Line} (h : w.toNat = l.val) : lineArg w = some l := by
  simp [lineArg, h]

theorem applyClearFaultMeter_none {w : Word} (s : State) (h : 512 ≤ w.toNat) :
    applyClearFaultMeter w s = .result .badArgument none s := by
  rw [applyClearFaultMeter, lineArg_none h]

/-- CLEAR FAULT on a line's meter clears its fault alone (R110). -/
theorem applyClearFaultMeter_line {w : Word} {l : Line} (s : State) (h : w.toNat = l.val) :
    applyClearFaultMeter w s = .result .done none (s.setLine l { s.line l with fault := .none }) := by
  simp [applyClearFaultMeter, lineArg_line h]

/-! ## The orders on faults (R13, R14, R110) -/

/-- SET FAULT that names no crosspoint (R13). -/
theorem exec_setFault_badArgument {s : State} {i : OrderSlot} {w0 w1 w2 : Word} (hs : s.OrderFree i)
    (h : faultArg w0 w1 w2 = none) :
    ∃ t, exec (.setFault i w0 w1 w2) s = .next t ∧ State.ArbiterOnly (s.answered i .badArgument none) t :=
  exec_order_answered (e := s.orderEntry i 11 (some w0) (some w1) (some w2)) rfl hs rfl (applySetFault_none _ h)

/-- SET FAULT makes the presence test before the fullness test (R13). -/
theorem exec_setFault_crosspoint {s : State} {i : OrderSlot} {w0 w1 w2 : Word} {xp : Crosspoint} (hs : s.OrderFree i)
    (h : faultArg w0 w1 w2 = some xp) :
    ∃ t, exec (.setFault i w0 w1 w2) s = .next t ∧
      State.ArbiterOnly
        (if xp ∈ s.faults then s.answered i .done none
          else if 32 ≤ s.faults.length then s.answered i .tableFull none
          else ({ s with faults := s.faults ++ [xp] } : State).answered i .done none) t := by
  let e := s.orderEntry i 11 (some w0) (some w1) (some w2)
  split
  next hx => exact exec_order_answered (e := e) rfl hs rfl (applySetFault_listed _ h hx)
  next hx =>
    split
    next hf => exact exec_order_answered (e := e) rfl hs rfl (applySetFault_full _ h hx hf)
    next hf => exact exec_order_answered (e := e) rfl hs rfl (applySetFault_room _ h hx (Nat.not_le.mp hf))

/-- CLEAR FAULT that names neither the meter nor a crosspoint (R14). -/
theorem exec_clearFault_badArgument {s : State} {i : OrderSlot} {w0 w1 w2 : Word} (hs : s.OrderFree i) (hw : w0 ≠ 2)
    (h : faultArg w0 w1 w2 = none) :
    ∃ t, exec (.clearFault i w0 w1 w2) s = .next t ∧ State.ArbiterOnly (s.answered i .badArgument none) t :=
  exec_order_answered (e := s.orderEntry i 12 (some w0) (some w1) (some w2)) rfl hs rfl
    ((applyOrder_clearFault _ hw).trans (applyClearFault_none _ h))

/-- CLEAR FAULT on a crosspoint, whether it is in the table or not (R14). -/
theorem exec_clearFault_crosspoint {s : State} {i : OrderSlot} {w0 w1 w2 : Word} {xp : Crosspoint} (hs : s.OrderFree i)
    (hw : w0 ≠ 2) (h : faultArg w0 w1 w2 = some xp) :
    ∃ t, exec (.clearFault i w0 w1 w2) s = .next t ∧
      State.ArbiterOnly (({ s with faults := s.faults.filter fun y => y ≠ xp } : State).answered i .done none) t :=
  exec_order_answered (e := s.orderEntry i 12 (some w0) (some w1) (some w2)) rfl hs rfl
    ((applyOrder_clearFault _ hw).trans (applyClearFault_some _ h))

theorem exec_clearFaultMeter_badArgument {s : State} {i : OrderSlot} {w : Word} (hs : s.OrderFree i) (hw : 512 ≤ w.toNat) :
    ∃ t, exec (.clearFaultMeter i w) s = .next t ∧ State.ArbiterOnly (s.answered i .badArgument none) t :=
  exec_order_answered (e := s.orderEntry i 12 (some 2) (some w) none) rfl hs rfl (applyClearFaultMeter_none _ hw)

theorem exec_clearFaultMeter_line {s : State} {i : OrderSlot} {w : Word} {l : Line} (hs : s.OrderFree i)
    (hw : w.toNat = l.val) :
    ∃ t, exec (.clearFaultMeter i w) s = .next t ∧
      State.ArbiterOnly
        (({ s with lines := s.lines.set l.val { s.line l with fault := .none } l.isLt } : State).answered i .done none) t :=
  exec_order_answered (e := s.orderEntry i 12 (some 2) (some w) none) rfl hs rfl (applyClearFaultMeter_line _ hw)

/-- Settles O39, by the crosspoint or line that the order's words name. -/
theorem faultOrders : Obligations.FaultOrders := by
  unfold Obligations.FaultOrders
  refine ⟨fun s i w0 w1 w2 o hs hwords => ?_, fun s i w1 w2 hs => ?_, fun s i w hs => ⟨?_, fun l hw => ?_⟩⟩
  · obtain ⟨hw0, ho⟩ : w0 ≠ 2 ∧ faultArg w0 w1 w2 = o := by
      obtain ⟨rfl, g, p, k, hw, hp, rfl, rfl⟩ | ⟨rfl, k, g, j, hw, hg, rfl, rfl⟩ | ⟨hw, rfl⟩ := hwords
      · exact ⟨by decide, faultArg_stageA w2 hw hp⟩
      · exact ⟨by decide, faultArg_stageB w2 hw hg⟩
      · exact ⟨by rintro rfl; exact absurd hw (by decide), faultArg_unknown w1 w2 (by omega)⟩
    subst ho
    exact ⟨fun h => ⟨exec_setFault_badArgument hs h, exec_clearFault_badArgument hs hw0 h⟩,
      fun xp h => ⟨exec_setFault_crosspoint hs h, exec_clearFault_crosspoint hs hw0 h⟩⟩
  · exact exec_setFault_badArgument hs (faultArg_unknown w1 w2 (by decide))
  · exact exec_clearFaultMeter_badArgument hs
  · exact exec_clearFaultMeter_line hs hw

/-! ## Paths (R2 to R4) -/

/-- The two ends of a cord lie on neighbouring B-switches, so never on one (R3). -/
theorem cord_switches_ne (c : Cord) : terminalSwitch (cordTerminal0 c) ≠ terminalSwitch (cordTerminal1 c) := by
  simp only [terminalSwitch, cordTerminal0, cordTerminal1, ne_eq, Fin.mk.injEq]
  omega

/-- The two ends of a cord have one outlet number (R2). -/
theorem cord_outlets_eq (c : Cord) : terminalOutlet (cordTerminal1 c) = terminalOutlet (cordTerminal0 c) := by
  simp only [terminalOutlet, cordTerminal0, cordTerminal1, Fin.mk.injEq]
  omega

theorem circuitTerminals_cord (c : Cord) : circuitTerminals (cordCircuit c) = [cordTerminal0 c, cordTerminal1 c] :=
  dif_pos c.isLt

theorem circuitTerminals_junction {x : Circuit} (h : 24 ≤ x.val) : circuitTerminals x = [junctionTerminal x] :=
  dif_neg (Nat.not_lt.mpr h)

/-- Settles O26: the coordinates are those of R1 and R2 for the two lines and the circuit's terminals. -/
theorem pathsOfCalls : Obligations.PathsOfCalls := by
  unfold Obligations.PathsOfCalls
  constructor
  · intro c a b
    have hlinks : (lineGroup a, terminalSwitch (cordTerminal0 c)) ≠ (lineGroup b, terminalSwitch (cordTerminal1 c)) :=
      fun h => cord_switches_ne c (Prod.mk.inj h).2
    exact ⟨lineGroup a, lineGroup b, linePosition a, linePosition b, terminalSwitch (cordTerminal0 c),
      terminalSwitch (cordTerminal1 c), terminalOutlet (cordTerminal0 c), terminalOutlet (cordTerminal1 c),
      cordTerminal0 c, cordTerminal1 c, rfl, rfl, rfl, rfl, rfl, rfl, rfl, rfl, rfl, rfl, hlinks, cord_outlets_eq c,
      rfl, rfl, circuitTerminals_cord c⟩
  · intro x l hx
    exact ⟨lineGroup l, linePosition l, terminalSwitch (junctionTerminal x), terminalOutlet (junctionTerminal x),
      junctionTerminal x, rfl, rfl, rfl, rfl, rfl, rfl, rfl, rfl, rfl, circuitTerminals_junction hx⟩

end Sys2Proof.Machine
end

section
/-!
PROOF. The order that sets a line's class (O34).
-/

namespace Sys2Proof.Machine

/-! ## The class that an order names (section 11.1) -/

/-- No code above 4 names a class. -/
theorem classArg_none {w : Word} (h : 5 ≤ w.toNat) : classArg w = none := by
  unfold classArg
  split
  case h_6 => rfl
  all_goals omega

theorem classArg_code {w : Word} {c : LineClass}
    (h : w = 0 ∧ c = .spare ∨ w = 1 ∧ c = .ordinary ∨ w = 2 ∧ c = .detailed ∨ w = 3 ∧ c = .coin
      ∨ w = 4 ∧ c = .incomingOnly) : classArg w = some c := by
  obtain ⟨rfl, rfl⟩ | ⟨rfl, rfl⟩ | ⟨rfl, rfl⟩ | ⟨rfl, rfl⟩ | ⟨rfl, rfl⟩ := h <;> rfl

/-! ## The rule of SET CLASS (R27) -/

/-- SET CLASS whose words name no line or no class (R27). -/
theorem applySetClass_badArgument {w0 w1 : Word} (s : State) (h : lineArg w0 = none ∨ classArg w1 = none) :
    applySetClass w0 w1 s = .result .badArgument none s := by
  obtain h | h := h
  · rw [applySetClass, h]
  · cases hl : lineArg w0 with
    | none => rw [applySetClass, hl]
    | some l => rw [applySetClass, hl, h]

/-- SET CLASS on a busy line (R27). -/
theorem applySetClass_busy {w0 w1 : Word} {l : Line} {c : LineClass} (s : State) (hl : lineArg w0 = some l)
    (hc : classArg w1 = some c) (hb : (s.line l).busy ≠ none) :
    applySetClass w0 w1 s = .result .lineBusy none s := by
  simp [applySetClass, hl, hc, State.lineBusy, Option.isSome_iff_ne_none.mpr hb]

/-- SET CLASS on a line that is not busy changes its class alone (R27). -/
theorem applySetClass_idle {w0 w1 : Word} {l : Line} {c : LineClass} (s : State) (hl : lineArg w0 = some l)
    (hc : classArg w1 = some c) (hb : (s.line l).busy = none) :
    applySetClass w0 w1 s = .result .done none (s.setLine l { s.line l with cls := c }) := by
  simp [applySetClass, hl, hc, State.lineBusy, hb]

/-- Settles O34, by what the order's two words name and whether the line is busy. -/
theorem setClassSetsClass : Obligations.SetClassSetsClass := by
  unfold Obligations.SetClassSetsClass
  intro s i w0 w1 hs
  let e := s.orderEntry i 6 (some w0) (some w1) none
  refine ⟨fun h => ?_, fun l c hw0 hw1 => ?_⟩
  · have hargs : lineArg w0 = none ∨ classArg w1 = none := h.imp lineArg_none classArg_none
    exact exec_order_answered (e := e) rfl hs rfl (applySetClass_badArgument _ hargs)
  · have hl : lineArg w0 = some l := lineArg_line hw0
    have hc : classArg w1 = some c := classArg_code hw1
    exact ⟨fun hb => exec_order_answered (e := e) rfl hs rfl (applySetClass_busy _ hl hc hb),
      fun hb => exec_order_answered (e := e) rfl hs rfl (applySetClass_idle _ hl hc hb)⟩

end Sys2Proof.Machine
end

section
/-!
PROOF. The orders on the Time Base: the one that loads a tariff entry (O38), and the ones that re-evaluate the band in force,
which set the clock (O36) and load a calendar entry (O37).
-/

namespace Sys2Proof.Machine

/-! ## Loading a tariff entry (R83 to R85) -/

/-- Each pair of a distance band and a time band has its own place in the tariff (R83). -/
theorem tariffIndex_inj {d d' : DistBand} {b b' : TimeBand} : tariffIndex d b = tariffIndex d' b' ↔ d = d' ∧ b = b' := by
  simp only [tariffIndex, Fin.ext_iff]
  omega

/-- The tariff after one entry is loaded (R84, R85). -/
theorem State.loadTariff_tariffEntry (s : State) (d d' : DistBand) (b b' : TimeBand) (initial interval : Nat) :
    (s.loadTariff d b initial interval).tariffEntry d' b' =
      if d' = d ∧ b' = b then { interval := interval, initial := initial, increment := tariffIncrement interval }
      else s.tariffEntry d' b' := by
  simp only [State.tariffEntry, State.loadTariff, Fin.getElem_fin, Vector.getElem_set, Fin.val_inj, tariffIndex_inj,
    eq_comm]

/-- An interval of 0 is the word 0, and gives the increment 0 (R85). -/
theorem tariffIncrement_word (w : Word) :
    tariffIncrement w.toNat = if w = 0 then 0 else (131072 + w.toNat) / (2 * w.toNat) := by
  have hw : w.toNat = 0 ↔ w = 0 := BitVec.toNat_inj (y := 0)
  simp only [tariffIncrement, hw]

theorem distArg_none {w : Word} (h : 8 ≤ w.toNat) : distArg w = none := dif_neg (Nat.not_lt.mpr h)

theorem distArg_band {w : Word} {d : DistBand} (h : w.toNat = d.val) : distArg w = some d := by
  simp [distArg, h]

/-- The shared word composed of a time band and a number of initial pulses is read back as both (section 11.1). -/
theorem tariffWord_ofNat (b : TimeBand) (p : Fin 4) :
    tariffWordOk (BitVec.ofNat 16 (b.val + 16 * p.val)) = true ∧
    tariffWordBand (BitVec.ofNat 16 (b.val + 16 * p.val)) = b ∧
    tariffWordInitial (BitVec.ofNat 16 (b.val + 16 * p.val)) = p.val := by
  revert b p
  decide

theorem tariffWord_fields {w : Word} {b : TimeBand} {p : Fin 4} (h : w.toNat = b.val + 16 * p.val) :
    tariffWordOk w = true ∧ tariffWordBand w = b ∧ tariffWordInitial w = p.val := by
  have hw : w = BitVec.ofNat 16 (b.val + 16 * p.val) := by rw [← h, BitVec.ofNat_toNat, BitVec.setWidth_eq]
  rw [hw]
  exact tariffWord_ofNat b p

theorem applyLoadTariff_badArgument {w0 w1 w2 : Word} (s : State) (h : 8 ≤ w0.toNat ∨ 6000 < w2.toNat ∨ w1 &&& 0xFFCC ≠ 0) :
    applyLoadTariff w0 w1 w2 s = .result .badArgument none s := by
  unfold applyLoadTariff
  split
  case h_1 d hd =>
    have hw0 : ¬ 8 ≤ w0.toNat := fun h8 => by simp [distArg_none h8] at hd
    have hrest : 6000 < w2.toNat ∨ (!tariffWordOk w1) = true := by simpa [tariffWordOk] using h.resolve_left hw0
    exact if_pos hrest
  case h_2 => rfl

theorem applyLoadTariff_accepted {w0 w1 w2 : Word} {d : DistBand} {b : TimeBand} {p : Fin 4} (s : State)
    (h0 : w0.toNat = d.val) (h1 : w1.toNat = b.val + 16 * p.val) (h2 : w2.toNat ≤ 6000) :
    applyLoadTariff w0 w1 w2 s = .result .done none (s.loadTariff d b p.val w2.toNat) := by
  obtain ⟨hok, hband, hinitial⟩ := tariffWord_fields h1
  simp [applyLoadTariff, distArg_band h0, hok, hband, hinitial, Nat.not_lt.mpr h2]

/-- Settles O38: the order answers from its rule, and its state is the loaded one beside the order's answer. -/
theorem loadTariffDerivesIncrement : Obligations.LoadTariffDerivesIncrement := by
  unfold Obligations.LoadTariffDerivesIncrement
  intro s i w0 w1 w2 hs
  let e := s.orderEntry i 9 (some w0) (some w1) (some w2)
  refine ⟨fun h => ?_, fun d b p h0 h2 h1 => ?_⟩
  · exact exec_order_answered (e := e) rfl hs rfl (applyLoadTariff_badArgument _ h)
  · obtain ⟨t, ht, harb⟩ := exec_order_answered (c := .loadTariff i w0 w1 w2) (u := s.loadTariff d b p.val w2.toNat)
      (e := e) rfl hs rfl (applyLoadTariff_accepted _ h0 h1 h2)
    have htariff : t.tariff = (s.loadTariff d b p.val w2.toNat).tariff := by rw [harb]; rfl
    refine ⟨t, ht, ?_, fun d' b' => ?_⟩
    · rw [htariff]
      exact harb
    · rw [← tariffIncrement_word, ← State.loadTariff_tariffEntry]
      simp only [State.tariffEntry, htariff]

/-! ## A re-evaluation of the band within an order (R80, R81) -/

theorem State.ArbiterOnly.band {s t : State} (h : State.ArbiterOnly s t) : t.band = s.band := by rw [h]

theorem State.ArbiterOnly.records {s t : State} (h : State.ArbiterOnly s t) : t.records = s.records := by rw [h]

/-- The arbiter's choice after a re-evaluation of the band does not touch what it did. -/
theorem State.BandReevaluated.arbiterOnly {u v t : State} (hv : State.BandReevaluated u v) (ht : State.ArbiterOnly v t) :
    State.BandReevaluated u t where
  rule := ht.band ▸ hv.rule
  same hb := (hv.same (ht.band ▸ hb)).trans ht
  changed hb := by
    obtain ⟨hrest, hrecord⟩ := hv.changed (ht.band ▸ hb)
    refine ⟨?_, fun x => ?_⟩
    · rw [ht.band, ht.records]
      exact hrest.trans ht
    · rw [State.record, ht.records]
      exact hrecord x

@[simp] theorem State.reevaluateBand_cycles (s : State) : s.reevaluateBand.cycles = s.cycles := by
  unfold State.reevaluateBand
  split
  · rfl
  · exact State.report_cycles _ _

/-- An order's result and its dispatcher are no part of the report queue (R150, R168). -/
theorem State.report_handResult (s : State) (r : Report) (i : OrderSlot) (code : ResultCode) (x : Option Circuit)
    (d : Dispatcher) :
    { (s.report r).handResult i code x with dispatcher := d } =
      ({ s.handResult i code x with dispatcher := d } : State).report r := by
  obtain hroom | hfull := Nat.lt_or_ge s.reports.length 32
  · rw [State.report_room s r hroom]
    exact (State.report_room { s.handResult i code x with dispatcher := d } r hroom).symm
  · rw [State.report_full s r hfull]
    exact (State.report_full { s.handResult i code x with dispatcher := d } r hfull).symm

/-- An order's result and its dispatcher are no part of what a re-evaluation of the band reads or writes. -/
theorem State.reevaluateBand_handResult (s : State) (i : OrderSlot) (code : ResultCode) (x : Option Circuit) (d : Dispatcher) :
    { s.reevaluateBand.handResult i code x with dispatcher := d } =
      ({ s.handResult i code x with dispatcher := d } : State).reevaluateBand := by
  have heval : ({ s.handResult i code x with dispatcher := d } : State).evaluatedBand = s.evaluatedBand := rfl
  unfold State.reevaluateBand
  rw [heval]
  by_cases hband : s.evaluatedBand = s.band
  · rw [if_pos hband]
    exact (if_pos hband).symm
  · rw [if_neg hband]
    exact (State.report_handResult _ _ i code x d).trans (if_neg hband).symm

/-- An order answered in its own event whose rule ends with a re-evaluation of the band (R80, R148, R149). -/
theorem exec_order_reevaluated {s u : State} {c : Instr} {e : OrderEntry} {code : ResultCode} {x : Option Circuit}
    (he : s.entryOf c = some e) (h : s.OrderFree e.slot) (hc : u.cycles = s.cycles)
    (hr : applyOrder e (s.setSlotState e.slot .inFlight) = .result code x (u.setSlotState e.slot .inFlight).reevaluateBand) :
    ∃ t, exec c s = .next t ∧ State.BandReevaluated (u.answered e.slot code x) t := by
  refine ⟨_, exec_of_entryOf he, ?_⟩
  rw [State.giveOrder_result s _ e code x h hr, State.reevaluateBand_handResult]
  obtain ⟨-, -, -, -, hcycles, -⟩ := h
  have harb := State.askPort_arbiterOnly (u.answered e.slot code x).reevaluateBand
    ((State.reevaluateBand_cycles _).trans (hc.trans hcycles))
  exact (State.reevaluateBand_spec _).arbiterOnly harb

/-! ## Setting the clock (R76) -/

theorem applySetTime_badArgument {w0 w1 : Word} (s : State) (h : 10080 ≤ w0.toNat ∨ 60 ≤ w1.toNat) :
    applySetTime w0 w1 s = .result .badArgument none s :=
  if_pos h

theorem applySetTime_accepted {w0 w1 : Word} (s : State) (h0 : w0.toNat < 10080) (h1 : w1.toNat < 60) :
    applySetTime w0 w1 s = .result .done none (s.setTime w0.toNat w1.toNat) :=
  if_neg (not_or.mpr ⟨Nat.not_le.mpr h0, Nat.not_le.mpr h1⟩)

/-- Settles O36, by whether the two words are in range. -/
theorem setTimeSetsClock : Obligations.SetTimeSetsClock := by
  unfold Obligations.SetTimeSetsClock
  intro s i w0 w1 hs
  let e := s.orderEntry i 8 (some w0) (some w1) none
  exact ⟨fun h => exec_order_answered (e := e) rfl hs rfl (applySetTime_badArgument _ h),
    fun h0 h1 => exec_order_reevaluated
      (u := { s with weekMinute := w0.toNat, second := w1.toNat, tenths := 0, timeUnset := false }) (e := e) rfl hs rfl
      (applySetTime_accepted _ h0 h1)⟩

/-! ## Loading a calendar entry (R78) -/

theorem calendarArg_none {w : Word} (h : 16 ≤ w.toNat) : calendarArg w = none := dif_neg (Nat.not_lt.mpr h)

theorem calendarArg_index {w : Word} {n : Fin 16} (h : w.toNat = n.val) : calendarArg w = some n := by
  simp [calendarArg, h]

theorem bandArg_none {w : Word} (h : 4 ≤ w.toNat) : bandArg w = none := dif_neg (Nat.not_lt.mpr h)

theorem bandArg_band {w : Word} {b : TimeBand} (h : w.toNat = b.val) : bandArg w = some b := by
  simp [bandArg, h]

/-- The word that makes an entry invalid is no minute of the week (R78). -/
theorem ne_ffff_of_minute {w : Word} (h : w.toNat < 10080) : w ≠ 0xFFFF := by
  rintro rfl
  exact absurd h (by decide)

theorem applyLoadCalendar_badArgument {w0 w1 w2 : Word} (s : State)
    (h : 16 ≤ w0.toNat ∨ (10080 ≤ w1.toNat ∧ w1 ≠ 0xFFFF) ∨ (w1.toNat < 10080 ∧ 4 ≤ w2.toNat)) :
    applyLoadCalendar w0 w1 w2 s = .result .badArgument none s := by
  unfold applyLoadCalendar
  split
  case h_2 => rfl
  case h_1 n hn =>
    have hw0 : ¬ 16 ≤ w0.toNat := fun h16 => by simp [calendarArg_none h16] at hn
    obtain ⟨hminute, hff⟩ | ⟨hminute, hband⟩ := h.resolve_left hw0
    · exact (if_neg hff).trans (if_neg (Nat.not_lt.mpr hminute))
    · rw [if_neg (ne_ffff_of_minute hminute), bandArg_none hband, ite_self]

/-- The band is not examined when the entry is made invalid (R78). -/
theorem applyLoadCalendar_clears {w0 : Word} {n : Fin 16} (w2 : Word) (s : State) (h0 : w0.toNat = n.val) :
    applyLoadCalendar w0 0xFFFF w2 s = .result .done none (s.loadCalendar n { valid := false, minute := 0, band := 0 }) := by
  simp [applyLoadCalendar, calendarArg_index h0]

theorem applyLoadCalendar_sets {w0 w1 w2 : Word} {n : Fin 16} {b : TimeBand} (s : State) (h0 : w0.toNat = n.val)
    (h1 : w1.toNat < 10080) (h2 : w2.toNat = b.val) :
    applyLoadCalendar w0 w1 w2 s = .result .done none (s.loadCalendar n { valid := true, minute := w1.toNat, band := b }) := by
  rw [applyLoadCalendar, calendarArg_index h0, bandArg_band h2]
  exact (if_neg (ne_ffff_of_minute h1)).trans (if_pos h1)

/-- The state of an accepted LOAD CALENDAR, whatever the entry it loads (R78, R80). -/
theorem exec_loadCalendar_entry {s : State} {i : OrderSlot} {w0 w1 w2 : Word} (hs : s.OrderFree i) (n : Fin 16)
    (entry : CalEntry) (h : ∀ u, applyLoadCalendar w0 w1 w2 u = .result .done none (u.loadCalendar n entry)) :
    ∃ t, exec (.loadCalendar i w0 w1 w2) s = .next t ∧
      State.BandReevaluated
        (({ s with calendar := s.calendar.set n.val entry n.isLt } : State).answered i .done none) t :=
  exec_order_reevaluated (u := { s with calendar := s.calendar.set n.val entry n.isLt })
    (e := s.orderEntry i 10 (some w0) (some w1) (some w2)) rfl hs rfl (h _)

/-- Settles O37, by what the words name: nothing, the entry made invalid, or a minute and a band. -/
theorem loadCalendarSetsEntry : Obligations.LoadCalendarSetsEntry := by
  unfold Obligations.LoadCalendarSetsEntry
  intro s i w0 w1 w2 hs
  refine ⟨fun h => ?_, fun n h0 => ⟨?_, fun b h1 h2 => ?_⟩⟩
  · exact exec_order_answered (e := s.orderEntry i 10 (some w0) (some w1) (some w2)) rfl hs rfl
      (applyLoadCalendar_badArgument _ h)
  · rintro rfl
    obtain ⟨t, ht, hband⟩ := exec_loadCalendar_entry hs n _ fun u => applyLoadCalendar_clears w2 u h0
    exact ⟨t, _, ht, rfl, hband⟩
  · exact exec_loadCalendar_entry hs n _ fun u => applyLoadCalendar_sets u h0 h1 h2

end Sys2Proof.Machine
end

section
/-!
PROOF. The write of the read-index cell (O19): where the cell lies in a valid map, what the Ticket Unit's judgement of a value can
do, and the cycle that carries the value.
-/

namespace Sys2Proof.Machine

/-! ## The cells of a valid map (R155, R158) -/

/-- In a valid map CELLS starts at a multiple of its size. -/
theorem configValid_cells_aligned {m : RegionMap} {threshold : Nat} (h : configValid m threshold = true) :
    m.cells.toNat % 16 = 0 := by
  simp only [configValid, RegionMap.runs, Bool.and_eq_true, List.all_cons, beq_iff_eq] at h
  obtain ⟨⟨-, -, haligned, -⟩, -⟩ := h
  exact haligned

/-- In a valid map ORDER and CELLS share no address. -/
theorem configValid_order_cells_apart {m : RegionMap} {threshold : Nat} (h : configValid m threshold = true) :
    m.order.toNat + 128 ≤ m.cells.toNat ∨ m.cells.toNat + 16 ≤ m.order.toNat := by
  simp only [configValid, RegionMap.runs, allApart, Bool.and_eq_true, List.all_cons, runsApart, Bool.or_eq_true,
    decide_eq_true_eq] at h
  obtain ⟨-, ⟨hapart, -⟩, -⟩ := h
  exact hapart

/-- The words of CELLS do not run past the end of the address space. -/
theorem cellAddr_toNat {m : RegionMap} {off : Nat} (haligned : m.cells.toNat % 16 = 0) (hoff : off < 16) :
    (m.cellAddr off).toNat = m.cells.toNat + off := by
  have hlt := m.cells.isLt
  rw [RegionMap.cellAddr, regionAddr, BitVec.toNat_add, BitVec.toNat_ofNat]
  omega

theorem region_cellAddr {m : RegionMap} {threshold off : Nat} (h : configValid m threshold = true) (hoff : off < 16) :
    m.region (m.cellAddr off) = .cells off := by
  have haddr := cellAddr_toNat (configValid_cells_aligned h) hoff
  have hcells : inRun (m.cellAddr off) m.cells cellsSize = true := by
    simp only [inRun, cellsSize, haddr, Bool.and_eq_true, decide_eq_true_eq]
    omega
  have horder : ¬ inRun (m.cellAddr off) m.order orderSize = true := by
    have hapart := configValid_order_cells_apart h
    simp only [inRun, orderSize, haddr, Bool.and_eq_true, decide_eq_true_eq]
    omega
  rw [RegionMap.region, if_neg horder, if_pos hcells, haddr, Nat.add_sub_cancel_left]

/-! ## The judgement of a read index (R136) -/

/-- How many slots beyond Rd a value written to the read-index cell lies, around the ring (R136). -/
def State.indexAdvance (s : State) (v : Word) : Nat := (v.toNat + s.map.ringSize - s.readIndex) % s.map.ringSize

/-- A value that names no slot of the ring, or consumes more than is unread (R136). -/
def State.IndexRefused (s : State) (v : Word) : Prop :=
  s.map.ringSize ≤ v.toNat ∨ (s.indexAdvance v ≠ 0 ∧ s.unreadCount < s.indexAdvance v)

theorem State.judgeReadIndex_refused {s : State} {v : Word} (h : s.IndexRefused v) :
    s.judgeReadIndex v = s.report (.ticketIndexError v) := by
  by_cases hn : s.map.ringSize ≤ v.toNat
  · exact if_pos hn
  · obtain ⟨hadvance, hunread⟩ := h.resolve_left hn
    exact (if_neg hn).trans ((if_neg hadvance).trans (if_neg (Nat.not_le.mpr hunread)))

theorem State.judgeReadIndex_accepted {s : State} {v : Word} (h : ¬ s.IndexRefused v) :
    s.judgeReadIndex v =
      { s with readIndex := if s.indexAdvance v = 0 then s.readIndex else v.toNat, ringFull := false } := by
  obtain ⟨hn, hunread⟩ := not_or.mp h
  refine (if_neg hn).trans ?_
  by_cases hadvance : s.indexAdvance v = 0
  · rw [if_pos hadvance]
    exact if_pos hadvance
  · have hle : s.indexAdvance v ≤ s.unreadCount := Nat.not_lt.mp fun hlt => hunread ⟨hadvance, hlt⟩
    rw [if_neg hadvance]
    exact (if_neg hadvance).trans (if_pos hle)

/-- A judgement changes Rd, full, and the report queue with its sticky, at most (R136, R168). -/
theorem State.judgeReadIndex_frame (s : State) (v : Word) :
    s.judgeReadIndex v =
      { s with readIndex := (s.judgeReadIndex v).readIndex, ringFull := (s.judgeReadIndex v).ringFull,
               reports := (s.judgeReadIndex v).reports, reportsLost := (s.judgeReadIndex v).reportsLost } := by
  by_cases h : s.IndexRefused v
  · rw [State.judgeReadIndex_refused h, State.report]
    split <;> rfl
  · rw [State.judgeReadIndex_accepted h]

/-- A judgement neither reads nor writes the arbiter's requests and count. -/
theorem State.judgeReadIndex_requests (s : State) (v : Word) (b : BurstState) (m : Bool) (g : Nat) :
    ({ s with burst := b, meterRequest := m, grantCount := g } : State).judgeReadIndex v =
      { s.judgeReadIndex v with burst := b, meterRequest := m, grantCount := g } := by
  let s' : State := { s with burst := b, meterRequest := m, grantCount := g }
  by_cases h : s.IndexRefused v
  · have h' : s'.IndexRefused v := h
    rw [State.judgeReadIndex_refused h, State.judgeReadIndex_refused h', State.report, State.report]
    split <;> rfl
  · have h' : ¬ s'.IndexRefused v := h
    rw [State.judgeReadIndex_accepted h, State.judgeReadIndex_accepted h']
    rfl

/-! ## The write of the read-index cell (R136, R162) -/

/-- `s` after the cycle of a write of the read-index cell has passed its value to memory, not yet judged. -/
def State.indexPassed (s : State) (v : Word) : State :=
  { s.writeMem (s.map.cellAddr 4) v with ends := [.prdy], readPair := none }

theorem State.isPassed_indexWrite {s : State} (v : Word) (hready : s.phase = .ready) (hmap : s.MapInv) :
    s.isPassed (.write (s.map.cellAddr 4) v) = true := by
  have hregion : s.map.region (s.map.cellAddr 4) = .cells 4 := region_cellAddr (hmap hready) (by decide)
  simp [State.isPassed, hready, hregion]

/-- The cycle of a write of the read-index cell is passed, and its value judged (R136, R159). -/
theorem State.performCycle_indexWrite {s : State} (v : Word) (hready : s.phase = .ready) (hmap : s.MapInv) :
    s.performCycle (.write (s.map.cellAddr 4) v) = (s.passWrite (s.map.cellAddr 4) v).judgeReadIndex v := by
  have hregion : s.map.region (s.map.cellAddr 4) = .cells 4 := region_cellAddr (hmap hready) (by decide)
  simp [State.performCycle, hready, State.readyWrite, hregion]

/-- READ_INDEX_WRITE that memory completes in its own event (R136, R162). -/
theorem exec_readIndexWrite_whole {s : State} (v : Word) (hfree : s.PortFree) (hready : s.phase = .ready) (hmap : s.MapInv) :
    ∃ t, exec (.readIndexWrite ⟨v, false⟩) s = .next t ∧ State.ArbiterOnly ((s.indexPassed v).judgeReadIndex v) t := by
  have ⟨hcycles, _, hstretch, _⟩ := hfree
  refine ⟨_, rfl, State.presentCycle_ends s _ _ hfree (by simp [hready]) (fun b m g => ?_) ?_⟩
  · let granted : State :=
      { s with ends := [], cycles := [.write (s.map.cellAddr 4) v], burst := b, meterRequest := m, grantCount := g }
    have hpassed : granted.passWrite (s.map.cellAddr 4) v =
        { s.indexPassed v with burst := b, meterRequest := m, grantCount := g } := by
      simp [granted, State.passWrite, State.endCycle, State.writeMem, State.indexPassed, hcycles, hstretch]
    calc granted.performCycle (.write (s.map.cellAddr 4) v)
        = (granted.passWrite (s.map.cellAddr 4) v).judgeReadIndex v :=
          State.performCycle_indexWrite (s := granted) v hready hmap
      _ = { (s.indexPassed v).judgeReadIndex v with burst := b, meterRequest := m, grantCount := g } := by
          rw [hpassed, State.judgeReadIndex_requests]
  · rw [State.judgeReadIndex_frame]
    exact hcycles

/-- The arbiter leaves the call store, and what a judgement may change (R163). -/
theorem State.ArbiterOnly.judged {s t : State} (h : State.ArbiterOnly s t) :
    t.mem = s.mem ∧ t.readIndex = s.readIndex ∧ t.ringFull = s.ringFull ∧ t.reports = s.reports ∧
      t.reportsLost = s.reportsLost := by
  rw [h]
  exact ⟨rfl, rfl, rfl, rfl, rfl⟩

/-- Settles O19: the value is passed and then judged, and the judgement either reports it or takes it. -/
theorem readIndexWriteJudged : Obligations.ReadIndexWriteJudged := by
  unfold Obligations.ReadIndexWriteJudged
  intro s v hfree hready hmap hstore
  refine ⟨⟨_, rfl, State.presentCycle_later s _ hfree (State.isPassed_indexWrite v hready hmap)⟩, ?_⟩
  obtain ⟨t, ht, harb⟩ := exec_readIndexWrite_whole v hfree hready hmap
  have hframe := (s.indexPassed v).judgeReadIndex_frame v
  obtain ⟨hmem, hread, hfull, hreports, hlost⟩ := harb.judged
  have hstored : t.mem = (s.writeMem (s.map.cellAddr 4) v).mem := by rw [hmem, hframe]; rfl
  refine ⟨t, ht, ?_, ?_, fun b hb => ?_, ?_⟩
  · rw [hstored, hread, hfull, hreports, hlost]
    rw [hframe] at harb
    exact harb
  · rw [State.readMem, hstored]
    exact State.readMem_writeMem_same s _ v hstore
  · rw [State.readMem, hstored]
    exact State.readMem_writeMem_ne s _ b v hb.symm
  · rw [hread, hfull, hreports, hlost]
    by_cases hrefused : (s.indexPassed v).IndexRefused v
    · rw [State.judgeReadIndex_refused hrefused]
      refine (if_pos hrefused).mpr ⟨fun hroom => ?_, fun hnoroom => ?_, State.report_readIndex _ _, State.report_ringFull _ _⟩
      · rw [State.report_room (s.indexPassed v) _ hroom]
        exact ⟨rfl, rfl⟩
      · rw [State.report_full (s.indexPassed v) _ hnoroom]
        exact ⟨rfl, rfl⟩
    · rw [State.judgeReadIndex_accepted hrefused]
      exact (if_neg hrefused).mpr ⟨rfl, rfl, rfl, rfl⟩

end Sys2Proof.Machine
end

section
/-!
PROOF. The configuration words (O12): what the sixth word's set must be, what taking a word can do, and the cycle that carries it.
-/

namespace Sys2Proof.Machine

/-! ## The configuration set (R157, R158) -/

/-- The map of six words, its code read from bits 0 to 2 of the sixth. -/
theorem configMap_eq (o ce ca m ti p : Word) :
    configMap o ce ca m ti p =
      { order := o, cells := ce, calls := ca, meter := m, ticket := ti, code := p.toNat % 8 } := by
  simp [configMap, bitField]

/-- The threshold, read from bits 4 to 7 of the sixth word. -/
theorem configThreshold_eq (p : Word) : configThreshold p = p.toNat / 16 % 16 := by
  simp [configThreshold, bitField, Nat.shiftRight_eq_div_pow]

theorem RegionMap.ticketSize_eq (m : RegionMap) : m.ticketSize = 128 * 2 ^ m.code := by
  simp only [RegionMap.ticketSize, RegionMap.ringSize]
  omega

/-- Every base is a multiple of its region's size. -/
theorem RegionMap.runs_aligned_iff (m : RegionMap) :
    m.runs.all (fun r => r.1.toNat % r.2 == 0) = true ↔
      m.order.toNat % 128 = 0 ∧ m.cells.toNat % 16 = 0 ∧ m.calls.toNat % 256 = 0 ∧ m.meter.toNat % 1024 = 0 ∧
        m.ticket.toNat % (128 * 2 ^ m.code) = 0 := by
  simp [RegionMap.runs, RegionMap.ticketSize_eq, orderSize, cellsSize, callsSize, meterSize]

/-- The checks of a set, one by one (R158). -/
theorem configValid_iff (m : RegionMap) (threshold : Nat) :
    configValid m threshold = true ↔
      m.code ≤ 5 ∧ 1 ≤ threshold ∧ threshold ≤ 8 ∧ m.order.toNat % 128 = 0 ∧ m.cells.toNat % 16 = 0 ∧
        m.calls.toNat % 256 = 0 ∧ m.meter.toNat % 1024 = 0 ∧ m.ticket.toNat % (128 * 2 ^ m.code) = 0 ∧
        allApart m.runs = true := by
  simp only [configValid, Bool.and_eq_true, decide_eq_true_eq, RegionMap.runs_aligned_iff, and_assoc]

/-! ## Taking a configuration word (R157, R158) -/

/-- One of the first five words is kept behind those taken before it. -/
theorem State.takeConfigWord_kept {s : State} {taken : List Word} (v : Word) (h : taken.length < 5) :
    s.takeConfigWord taken v = { s with phase := .loading (taken ++ [v]) } := by
  unfold State.takeConfigWord
  split
  next hsix =>
    have hlen := congrArg List.length hsix
    simp only [List.length_append, List.length_cons, List.length_nil] at hlen
    omega
  next => rfl

theorem State.takeConfigWord_valid {s : State} {o ce ca m ti v : Word}
    (h : configValid (configMap o ce ca m ti v) (configThreshold v) = true) :
    s.takeConfigWord [o, ce, ca, m, ti] v =
      s.install (configMap o ce ca m ti v) (configThreshold v) s.configFault := if_pos h

theorem State.takeConfigWord_invalid {s : State} {o ce ca m ti v : Word}
    (h : ¬ configValid (configMap o ce ca m ti v) (configThreshold v) = true) :
    s.takeConfigWord [o, ce, ca, m, ti] v = s.installPreset true := if_neg h

/-- Taking a word changes the phase, the map, the threshold and the config fault, at most. -/
theorem State.takeConfigWord_frame (s : State) (taken : List Word) (v : Word) :
    s.takeConfigWord taken v =
      { s with phase := (s.takeConfigWord taken v).phase, map := (s.takeConfigWord taken v).map,
               threshold := (s.takeConfigWord taken v).threshold,
               configFault := (s.takeConfigWord taken v).configFault } := by
  unfold State.takeConfigWord
  split
  · split <;> rfl
  · rfl

/-- Taking a word neither reads nor writes the processor's cycles, the answers and the arbiter's requests and count. -/
theorem State.takeConfigWord_granted (s : State) (taken : List Word) (v : Word) (e : List CycleEnd) (c : List Cycle)
    (b : BurstState) (m : Bool) (g : Nat) :
    ({ s with ends := e, cycles := c, burst := b, meterRequest := m, grantCount := g } : State).takeConfigWord taken v =
      { s.takeConfigWord taken v with ends := e, cycles := c, burst := b, meterRequest := m, grantCount := g } := by
  unfold State.takeConfigWord
  split
  · split <;> rfl
  · rfl

/-! ## The cycle of a configuration word (R157, R162) -/

/-- `s` after the cycle of a configuration word has ended. -/
def State.configWordTaken (s : State) (taken : List Word) (v : Word) : State :=
  { s.takeConfigWord taken v with ends := [.prdy], readPair := none }

/-- In LOADING a write of any address carries a configuration word. -/
theorem State.performCycle_loading_write {s : State} {taken : List Word} (a v : Word) (h : s.phase = .loading taken) :
    s.performCycle (.write a v) = (s.takeConfigWord taken v).endCycle .prdy none := by
  simp only [State.performCycle, h]

theorem exec_configurationWord {s : State} {taken : List Word} (a v : Word) (hload : s.phase = .loading taken)
    (hfree : s.PortFree) :
    ∃ t, exec (.configurationWord a v) s = .next t ∧ State.ArbiterOnly (s.configWordTaken taken v) t := by
  have ⟨hcycles, _, hstretch, _⟩ := hfree
  have hframe := s.takeConfigWord_frame taken v
  refine ⟨_, rfl, State.presentCycle_ends s _ _ hfree (by simp [hload]) (fun b m g => ?_) ?_⟩
  · let granted : State :=
      { s with ends := [], cycles := [.write a v], burst := b, meterRequest := m, grantCount := g }
    calc granted.performCycle (.write a v)
        = (granted.takeConfigWord taken v).endCycle .prdy none :=
          State.performCycle_loading_write (s := granted) a v hload
      _ = { s.configWordTaken taken v with burst := b, meterRequest := m, grantCount := g } := by
          rw [State.takeConfigWord_granted, State.configWordTaken, hframe]
          simp [State.endCycle, hcycles, hstretch]
  · rw [State.configWordTaken, hframe]
    exact hcycles

/-- The arbiter leaves what a configuration word may change (R163). -/
theorem State.ArbiterOnly.configured {s t : State} (h : State.ArbiterOnly s t) :
    t.phase = s.phase ∧ t.map = s.map ∧ t.threshold = s.threshold ∧ t.configFault = s.configFault := by
  rw [h]
  exact ⟨rfl, rfl, rfl, rfl⟩

/-- Settles O12: the cycle takes its word and ends with PRDY; one of the first five words is kept, and the sixth installs its set or
the preset layout by the checks of R158. -/
theorem configurationWordTaken : Obligations.ConfigurationWordTaken := by
  unfold Obligations.ConfigurationWordTaken
  intro s a v taken hload hfree _
  obtain ⟨t, ht, harb⟩ := exec_configurationWord a v hload hfree
  obtain ⟨hphase, hmap, hthreshold, hfault⟩ := harb.configured
  refine ⟨t, ht, ?_, fun hfive => ?_, ?_⟩
  · rw [State.configWordTaken, State.takeConfigWord_frame] at harb
    rw [hphase, hmap, hthreshold, hfault]
    exact harb
  · rw [hphase, hmap, hthreshold, hfault, State.configWordTaken, State.takeConfigWord_kept v hfive]
    exact ⟨rfl, rfl, rfl, rfl⟩
  · rintro o ce ca m ti rfl
    have hchecks := configValid_iff (configMap o ce ca m ti v) (configThreshold v)
    rw [hphase, hmap, hthreshold, hfault, State.configWordTaken]
    by_cases hvalid : configValid (configMap o ce ca m ti v) (configThreshold v) = true
    · rw [State.takeConfigWord_valid hvalid]
      rw [configMap_eq, configThreshold_eq] at hchecks hvalid ⊢
      exact ⟨rfl, (if_pos (hchecks.mp hvalid)).mpr ⟨rfl, rfl, rfl⟩⟩
    · rw [State.takeConfigWord_invalid hvalid]
      rw [configMap_eq, configThreshold_eq] at hchecks hvalid
      exact ⟨rfl, (if_neg fun hset => hvalid (hchecks.mpr hset)).mpr ⟨rfl, rfl, rfl⟩⟩

end Sys2Proof.Machine
end

section
/-!
PROOF. What every step keeps (O4 to O7), and the reset state (O8). `State.Keeps s t` says that `t` meets every invariant that `s`
meets. It is shown once for each elementary change of a field that an invariant reads, once for each operation from the operations
it calls, and so for every command and for the clock period.
-/

namespace Sys2Proof.Machine

set_option Elab.async false

/-! ## The invariants as views of a state -/

/-- The store invariant reads the call store alone. -/
theorem State.StoreInv.congr {s t : State} (hmem : t.mem = s.mem := by rfl) (h : s.StoreInv) : t.StoreInv := by
  rw [State.StoreInv, hmem]
  exact h

theorem State.QueueInv.congr {s t : State} (hreports : t.reports = s.reports := by rfl)
    (horders : t.orderQueue = s.orderQueue := by rfl) (hheld : t.holdQueue = s.holdQueue := by rfl)
    (hclosing : t.closingWaiters = s.closingWaiters := by rfl) (hfaults : t.faults = s.faults := by rfl)
    (hgrants : t.grantCount = s.grantCount := by rfl) (h : s.QueueInv) : t.QueueInv where
  reports := hreports ▸ h.reports
  orders := horders ▸ h.orders
  held := hheld ▸ h.held
  closing := hclosing ▸ hheld ▸ h.closing
  faults := hfaults ▸ h.faults
  faultsOnce := hfaults ▸ h.faultsOnce
  grants := hgrants ▸ h.grants

theorem State.CountInv.congr {s t : State} (hrecords : t.records = s.records := by rfl) (hlines : t.lines = s.lines := by rfl)
    (hminute : t.weekMinute = s.weekMinute := by rfl) (hsecond : t.second = s.second := by rfl)
    (htenths : t.tenths = s.tenths := by rfl) (hcalendar : t.calendar = s.calendar := by rfl)
    (htariff : t.tariff = s.tariff := by rfl) (hseq : t.seqCounter = s.seqCounter := by rfl) (h : s.CountInv) : t.CountInv where
  records x := by rw [State.record, hrecords]; exact h.records x
  pulses l := by rw [State.line, hlines]; exact h.pulses l
  minute := hminute ▸ h.minute
  second := hsecond ▸ h.second
  tenths := htenths ▸ h.tenths
  calendar i := by rw [hcalendar]; exact h.calendar i
  interval d b := by rw [State.tariffEntry, htariff]; exact h.interval d b
  initial d b := by rw [State.tariffEntry, htariff]; exact h.initial d b
  increment d b := by rw [State.tariffEntry, htariff]; exact h.increment d b
  sequence := hseq ▸ h.sequence

theorem State.TicketInv.congr {s t : State} (hheld : t.holdQueue = s.holdQueue := by rfl)
    (hwaiting : t.closingWaiters = s.closingWaiters := by rfl) (hrecords : t.records = s.records := by rfl)
    (h : s.TicketInv) : t.TicketInv where
  held := hheld ▸ h.held
  waiting := hwaiting ▸ h.waiting
  stamps x := by rw [State.record, hrecords]; exact h.stamps x
  incoming x := by rw [State.record, hrecords]; exact h.incoming x

theorem State.RingInv.congr {s t : State} (hwrite : t.writeIndex = s.writeIndex := by rfl)
    (hread : t.readIndex = s.readIndex := by rfl) (hmap : t.map = s.map := by rfl) (hphase : t.phase = s.phase := by rfl)
    (hburst : t.burst = s.burst := by rfl) (howner : t.owner = s.owner := by rfl) (h : s.RingInv) : t.RingInv where
  write := by rw [hwrite, hmap]; exact h.write
  read := by rw [hread, hmap]; exact h.read
  before := by rw [hphase, hwrite, hread, hburst, howner]; exact h.before

theorem State.ScanInv.congr {s t : State} (hpoints : t.points = s.points := by rfl) (h : s.ScanInv) : t.ScanInv := by
  rw [State.ScanInv, hpoints]
  exact h

theorem State.MapInv.congr {s t : State} (hphase : t.phase = s.phase := by rfl) (hmap : t.map = s.map := by rfl)
    (hthreshold : t.threshold = s.threshold := by rfl) (h : s.MapInv) : t.MapInv := by
  rw [State.MapInv, hphase, hmap, hthreshold]
  exact h

/-! ## Keeping the invariants -/

/-- `t` meets every invariant that `s` meets. A field not given is one whose invariant reads nothing that has changed. -/
structure State.Keeps (s t : State) : Prop where
  store : s.StoreInv → t.StoreInv := by exact State.StoreInv.congr
  queues : s.QueueInv → t.QueueInv := by exact State.QueueInv.congr
  counts : s.CountInv → t.CountInv := by exact State.CountInv.congr
  mapped : s.MapInv → t.MapInv := by exact State.MapInv.congr
  tickets : s.CountInv → s.TicketInv → t.TicketInv := by exact fun _ => State.TicketInv.congr
  ring : s.RingInv → t.RingInv := by exact State.RingInv.congr
  scan : s.ScanInv → t.ScanInv := by exact State.ScanInv.congr

theorem State.Keeps.refl (s : State) : s.Keeps s where

theorem State.Keeps.trans {s t u : State} (h : s.Keeps t) (h' : t.Keeps u) : s.Keeps u where
  store hs := h'.store (h.store hs)
  queues hs := h'.queues (h.queues hs)
  counts hs := h'.counts (h.counts hs)
  mapped hs := h'.mapped (h.mapped hs)
  tickets hc hs := h'.tickets (h.counts hc) (h.tickets hc hs)
  ring hs := h'.ring (h.ring hs)
  scan hs := h'.scan (h.scan hs)

theorem State.Keeps.ite {p : Prop} [Decidable p] {s a b : State} (ha : p → s.Keeps a) (hb : ¬ p → s.Keeps b) :
    s.Keeps (if p then a else b) := by
  split
  next h => exact ha h
  next h => exact hb h

/-- A chain of operations that each keep the invariants keeps them. -/
theorem State.Keeps.foldl {α : Type} {f : State → α → State} (hf : ∀ (s : State) (a : α), s.Keeps (f s a)) :
    ∀ (l : List α) (s : State), s.Keeps (l.foldl f s)
  | [], s => .refl s
  | a :: rest, s => (hf s a).trans (State.Keeps.foldl hf rest (f s a))

/-- Everything of a state that an invariant reads. -/
def State.tracked (s : State) :=
  (((s.phase, s.map, s.threshold), s.mem), (s.reports, s.orderQueue, s.faults, s.grantCount, s.owner, s.burst),
    (s.records, s.lines, s.points), (s.weekMinute, s.second, s.tenths, s.calendar, s.tariff),
    (s.holdQueue, s.closingWaiters, s.seqCounter, s.writeIndex, s.readIndex))

/-- A change of fields that no invariant reads. -/
theorem State.Keeps.of_tracked {s t : State} (h : t.tracked = s.tracked := by rfl) : s.Keeps t := by
  simp only [State.tracked, Prod.mk.injEq] at h
  obtain ⟨⟨⟨hphase, hmap, hthreshold⟩, hmem⟩, ⟨hreports, horders, hfaults, hgrants, howner, hburst⟩,
    ⟨hrecords, hlines, hpoints⟩, ⟨hminute, hsecond, htenths, hcalendar, htariff⟩, ⟨hheld, hclosing, hseq, hwrite, hread⟩⟩ := h
  exact {
    store := .congr hmem
    queues := .congr hreports horders hheld hclosing hfaults hgrants
    counts := .congr hrecords hlines hminute hsecond htenths hcalendar htariff hseq
    mapped := .congr hphase hmap hthreshold
    tickets := fun _ => .congr hheld hclosing hrecords
    ring := .congr hwrite hread hmap hphase hburst howner
    scan := .congr hpoints }

/-! ## Elementary changes -/

theorem State.Keeps.writeMem (s : State) (a w : Word) : s.Keeps (s.writeMem a w) where
  store h := State.writeMem_wf s a w h

theorem State.Keeps.report (s : State) (r : Report) : s.Keeps (s.report r) := by
  unfold State.report
  split
  next hroom =>
    exact { queues := fun h => { h with reports := by simpa [Config.reportQueueCapacity] using hroom } }
  next => exact .of_tracked

/-- What a new record must meet for the invariants to stand: its counts in range, its stamp the old one or the clock's time, and no
ticket flag that an incoming record did not have. -/
structure State.RecordOk (s : State) (x : Circuit) (r : CallRecord) : Prop where
  counts : s.CountInv → r.CountInv
  stamp : ∀ st, r.stamp = some st → (s.record x).stamp = some st ∨ ∀ time, st.time = some time → time = (s.weekMinute, s.second)
  ticket : 48 ≤ x.val → r.ticket = true → (s.record x).ticket = true

/-- A record with the counts, stamp and ticket flag of the old one, its grace running on or stopped. -/
theorem State.RecordOk.of_same {s : State} {x : Circuit} {r : CallRecord} (hacc : r.acc = (s.record x).acc := by rfl)
    (hpaid : r.paid = (s.record x).paid := by rfl) (howed : r.owed = (s.record x).owed := by rfl)
    (hcredit : r.credit = (s.record x).credit := by rfl) (hduration : r.duration = (s.record x).duration := by rfl)
    (hstamp : r.stamp = (s.record x).stamp := by rfl) (hticket : r.ticket = (s.record x).ticket := by rfl)
    (hgrace : r.grace = (s.record x).grace ∨ r.grace = none := by exact .inl rfl) : s.RecordOk x r where
  counts h :=
    { acc := hacc ▸ (h.records x).acc
      paid := hpaid ▸ (h.records x).paid
      owed := howed ▸ (h.records x).owed
      credit := hcredit ▸ (h.records x).credit
      duration := hduration ▸ (h.records x).duration
      grace := by
        intro n hn
        rcases hgrace with hg | hg
        · exact (h.records x).grace n (hg ▸ hn)
        · simp [hg] at hn }
  stamp st hst := .inl (hstamp ▸ hst)
  ticket _ ht := hticket ▸ ht

/-- A record with its counts at 0, no grace and no stamp. -/
theorem State.RecordOk.of_zero {s : State} {x : Circuit} {r : CallRecord} (hacc : r.acc = 0 := by rfl) (hpaid : r.paid = 0 := by rfl)
    (howed : r.owed = 0 := by rfl) (hcredit : r.credit = 0 := by rfl) (hduration : r.duration = 0 := by rfl)
    (hgrace : r.grace = none := by rfl) (hstamp : r.stamp = none := by rfl) (hticket : 48 ≤ x.val → r.ticket = false) :
    s.RecordOk x r where
  counts _ := ⟨by omega, by omega, by omega, by omega, by omega, by simp [hgrace]⟩
  stamp st hst := by simp [hstamp] at hst
  ticket hx ht := by simp [hticket hx] at ht

/-- New records for all circuits. -/
theorem State.Keeps.records (s : State) (rs : Vector CallRecord 56) (h : ∀ x : Circuit, s.RecordOk x rs[x]) :
    s.Keeps { s with records := rs } where
  counts hc := { hc with records := fun x => (h x).counts hc }
  tickets hc ht :=
    { ht with
      stamps := fun x st m n hst htime => by
        rcases (h x).stamp st hst with hold | hnow
        · exact ht.stamps x st m n hold htime
        · obtain ⟨rfl, rfl⟩ := Prod.mk.inj (hnow _ htime)
          exact ⟨hc.minute, hc.second⟩
      incoming := fun x hx => by
        by_contra hr
        have htick := (h x).ticket hx (Bool.eq_true_of_not_eq_false hr)
        simp [ht.incoming x hx] at htick }

theorem State.RecordOk.refl (s : State) (x : Circuit) : s.RecordOk x (s.record x) := .of_same

/-- A new record of one circuit. -/
theorem State.Keeps.setRecord {s : State} {x : Circuit} {r : CallRecord} (h : s.RecordOk x r) : s.Keeps (s.setRecord x r) := by
  refine State.Keeps.records s _ fun y => ?_
  by_cases hy : y = x
  · subst hy
    simpa using h
  · have hne : x.val ≠ y.val := fun e => hy (Fin.ext e.symm)
    simpa [Vector.getElem_set_ne, hne, State.record] using State.RecordOk.refl s y

/-- A new line entry whose pending count stays in range. -/
theorem State.Keeps.setLine {s : State} {l : Line} {e : LineEntry} (h : (s.line l).pulses ≤ 65535 → e.pulses ≤ 65535 := by exact id) :
    s.Keeps (s.setLine l e) where
  counts hc :=
    { hc with
      pulses := fun m => by
        by_cases hm : m = l
        · subst hm
          simpa using h (hc.pulses m)
        · rw [State.line_setLine_ne _ _ _ _ hm]
          exact hc.pulses m }

theorem State.Keeps.setPoint {s : State} {p : Point} {st : PointState} (h : ∀ n, st.count = some n → n ≤ 25) :
    s.Keeps (s.setPoint p st) where
  scan hs := by
    intro q n hq
    by_cases hqp : q = p
    · subst hqp
      rw [State.point_setPoint_same] at hq
      exact h n hq
    · rw [State.point_setPoint_ne _ _ _ _ hqp] at hq
      exact hs q n hq

/-- New values of what the arbiter may change: the grant count within its bound, and outside READY neither a burst asked for nor a
burst under way that was not. -/
theorem State.Keeps.arbiter {s t : State} (h : State.ArbiterOnly s t) (hg : s.grantCount ≤ 8 → t.grantCount ≤ 8)
    (hb : s.phase ≠ .ready → s.burst ≠ .waiting → s.owner ≠ .ticketBurst → t.burst ≠ .waiting ∧ t.owner ≠ .ticketBurst) :
    s.Keeps t := by
  rw [h]
  exact {
    queues := fun hq => { hq with grants := hg hq.grants }
    ring := fun hr =>
      { hr with
        before := fun hp => by
          obtain ⟨hw, hrd, hwait, hown⟩ := hr.before hp
          exact ⟨hw, hrd, hb hp hwait hown⟩ } }

/-- Of what the invariants read, a new owner of the port alone, and no ticket burst. -/
theorem State.Keeps.setOwner {s t : State} (h : t.tracked = { s with owner := t.owner }.tracked := by rfl)
    (ho : t.owner ≠ .ticketBurst := by exact Owner.noConfusion) : s.Keeps t :=
  (State.Keeps.arbiter (t := { s with owner := t.owner }) rfl id fun _ hb _ => ⟨hb, ho⟩).trans (.of_tracked h)

theorem State.Keeps.freePort (s : State) : s.Keeps s.freePort := .setOwner

theorem State.Keeps.orderQueue (s : State) (q : List OrderEntry) (h : s.orderQueue.length ≤ 8 → q.length ≤ 8) :
    s.Keeps { s with orderQueue := q } where
  queues hq := { hq with orders := h hq.orders }

theorem State.Keeps.setFaults (s : State) (f : List Crosspoint)
    (h : s.faults.length ≤ 32 → s.faults.Nodup → f.length ≤ 32 ∧ f.Nodup) : s.Keeps { s with faults := f } where
  queues hq :=
    have hf := h hq.faults hq.faultsOnce
    { hq with faults := hf.1, faultsOnce := hf.2 }

/-- A new time of the week. -/
theorem State.Keeps.setClock (s : State) (m n d : Nat) (hm : s.weekMinute < 10080 → m < 10080) (hn : s.second < 60 → n < 60)
    (hd : s.tenths < 10 → d < 10) : s.Keeps { s with weekMinute := m, second := n, tenths := d } where
  counts hc := { hc with minute := hm hc.minute, second := hn hc.second, tenths := hd hc.tenths }

/-- A set of configuration words installed before the part is ready: the ring indices are still 0 (R133, R157). -/
theorem State.Keeps.install (s : State) (m : RegionMap) (threshold : Nat) (fault : Bool) (hp : s.phase ≠ .ready)
    (hv : configValid m threshold = true) : s.Keeps (s.install m threshold fault) where
  mapped _ _ := hv
  ring hr := by
    obtain ⟨hw, hrd, -⟩ := hr.before hp
    have hpos : 0 < 16 * 2 ^ m.code := by positivity
    exact ⟨hw.symm ▸ hpos, hrd.symm ▸ hpos, fun h => absurd rfl h⟩

/-- A phase before READY, entered from another. -/
theorem State.Keeps.setPhase (s : State) (p : Phase) (hp : s.phase ≠ .ready) (hp' : p ≠ .ready) : s.Keeps { s with phase := p } where
  mapped _ h := absurd h hp'
  ring hr := { hr with before := fun _ => hr.before hp }

end Sys2Proof.Machine
end

section
/-!
PROOF. Each operation of the blocks keeps the invariants, in the order of the model's files.
-/

namespace Sys2Proof.Machine

set_option Elab.async false

/-! ## Tables, reports and results -/

theorem State.Keeps.setBusy (s : State) (l : Option Line) (b : Option Circuit) : s.Keeps (s.setBusy l b) := by
  cases l with
  | none => exact .refl s
  | some l => exact .setLine

theorem State.Keeps.handResult (s : State) (i : OrderSlot) (code : ResultCode) (x : Option Circuit) :
    s.Keeps (s.handResult i code x) := .of_tracked

theorem State.Keeps.handConnectResult (s : State) (x : Circuit) (code : ResultCode) : s.Keeps (s.handConnectResult x code) := by
  unfold State.handConnectResult
  split
  next slot _ => exact (State.Keeps.handResult s slot code (some x)).trans (.setRecord .of_same)
  next => exact .refl s

theorem State.Keeps.issuePayTone (s : State) (x : Circuit) : s.Keeps (s.issuePayTone x) := by
  unfold State.issuePayTone
  split <;> exact .of_tracked

/-! ## Network Map (spec/01) -/

theorem State.Keeps.linkOut (s : State) (gk : LineGroup × LinkNo) : s.Keeps (s.linkOut gk) :=
  (State.Keeps.of_tracked (t := s.modifyLink gk fun l => { l with inService := false })).trans (.report _ _)

theorem State.Keeps.addFault (s : State) (xp : Crosspoint) (hnew : ¬ s.faulty xp = true)
    (hroom : s.faults.length < Config.faultTableCapacity) : s.Keeps (s.addFault xp) := by
  refine .setFaults s _ fun _ honce => ?_
  have hnot : xp ∉ s.faults := by simpa [State.faulty] using hnew
  exact ⟨by simpa [Config.faultTableCapacity] using hroom, honce.append (by simp) (by simpa using hnot)⟩

theorem State.Keeps.recordFault (s : State) (xp : Crosspoint) (c : FaultCause) : s.Keeps (s.recordFault xp c) := by
  unfold State.recordFault
  split
  next => exact .refl s
  next hnew =>
    split
    next hroom => exact (State.Keeps.addFault s xp hnew hroom).trans (.report _ _)
    next => exact .linkOut s _

theorem State.Keeps.recordBreakFault (s : State) (xp : Crosspoint) : s.Keeps (s.recordBreakFault xp) := by
  unfold State.recordBreakFault
  split
  next => exact .linkOut s _
  next hnew =>
    split
    next hroom => exact ((State.Keeps.addFault s xp hnew hroom).trans (.report _ _)).trans (.linkOut _ _)
    next => exact .linkOut s _

theorem State.Keeps.holdLinks (s : State) (x : Circuit) (p : Path) : s.Keeps (s.holdLinks x p) := by
  rw [State.holdLinks_eq]
  exact .of_tracked

/-- A hunt moves a pointer and holds links; the circuits it finds are no incoming junctions (R16, R17). -/
theorem State.Keeps.localHunt {s : State} {ex : Exclusion} {la lb : Line} {h : Hunted} (hh : s.localHunt ex la lb = some h) :
    s.Keeps h.after ∧ h.circuit.val < 48 := by
  unfold State.localHunt at hh
  split at hh
  next c _ =>
    obtain rfl := Option.some.inj hh
    exact ⟨(State.Keeps.of_tracked (t := { s with cordPtr := c + 1 })).trans (.holdLinks _ _ _),
      Nat.lt_trans c.isLt (by decide)⟩
  next => cases hh

theorem State.Keeps.outgoingHunt {s : State} {ex : Exclusion} {la : Line} {g : JunctionGroup} {h : Hunted}
    (hh : s.outgoingHunt ex la g = some h) : s.Keeps h.after ∧ h.circuit.val < 48 := by
  unfold State.outgoingHunt at hh
  split at hh
  next q _ =>
    obtain rfl := Option.some.inj hh
    refine ⟨(State.Keeps.of_tracked (t := { s with groupPtrs := s.groupPtrs.set g.val (q + 1) g.isLt })).trans
      (.holdLinks _ _ _), ?_⟩
    simp only [groupCircuit]
    omega
  next => cases hh

theorem State.Keeps.incomingHunt {s : State} {x : Circuit} {lb : Line} {h : Hunted} (hh : s.incomingHunt x lb = some h) :
    s.Keeps h.after := by
  unfold State.incomingHunt at hh
  split at hh
  next =>
    obtain rfl := Option.some.inj hh
    exact .holdLinks s _ _
  next => cases hh

/-! ## Served cells (spec/10) -/

theorem State.Keeps.popReport (s : State) : s.Keeps s.popReport := by
  unfold State.popReport
  split
  next r rest hr =>
    exact { queues := fun h => { h with reports := by have := h.reports; rw [hr] at this; exact Nat.le_of_succ_le this } }
  next => exact .of_tracked

theorem State.Keeps.afterCellRead (s : State) (off : Nat) : s.Keeps (s.afterCellRead off) := by
  unfold State.afterCellRead
  split
  next => exact .of_tracked
  next => exact .popReport s
  next => exact .refl s

/-! ## Charging and posting (spec/05) -/

theorem State.Keeps.chargeLine (s : State) (l : Line) : s.Keeps (s.chargeLine l) := by
  unfold State.chargeLine
  simp only
  split
  next hroom => exact .setLine fun _ => hroom
  next =>
    split
    next => exact .refl s
    next => exact State.Keeps.trans .setLine (.report _ _)

theorem State.Keeps.writeMeter (s : State) (l : Line) (count wrap : Nat) : s.Keeps (s.writeMeter l count wrap) :=
  (State.Keeps.writeMem _ _ _).trans (.writeMem _ _ _)

theorem State.Keeps.postingDone (s : State) (p : Posting) : s.Keeps (s.postingDone p) :=
  ((State.Keeps.writeMeter s p.line _ _).trans (.setLine fun h => (Nat.sub_le _ _).trans h)).trans (.freePort _)

theorem State.Keeps.postingFault (s : State) (l : Line) (found : MeterFault) : s.Keeps (s.postingFault l found) := by
  unfold State.postingFault
  simp only
  split
  next => exact State.Keeps.trans .setLine (.report _ _)
  next => exact (State.Keeps.setLine fun _ => Nat.zero_le _).trans (.report _ _)
  next => exact .refl s
  next => exact .refl s

theorem State.Keeps.postingCorrupt (s : State) (p : Posting) : s.Keeps (s.postingCorrupt p) :=
  (State.Keeps.postingFault s _ _).trans (.freePort _)

theorem State.Keeps.postingParity (s : State) (p : Posting) : s.Keeps (s.postingParity p) := by
  unfold State.postingParity
  split
  next => exact (State.Keeps.of_tracked (t := { s with retryLine := some p.line })).trans (.freePort _)
  next => exact (State.Keeps.postingFault s _ _).trans (.freePort _)

theorem State.Keeps.setMeterDone (s : State) : s.Keeps s.setMeterDone := by
  unfold State.setMeterDone
  split
  next j _ =>
    have hwritten : s.Keeps ({ s with setMeterJob := none }.writeMeter j.line j.value 0) :=
      (State.Keeps.of_tracked (t := { s with setMeterJob := none })).trans (.writeMeter _ _ _ _)
    exact ((hwritten.trans .setLine).trans (.handResult _ _ _ _)).trans (.freePort _)
  next => exact .freePort s

/-! ## Tickets (spec/07) -/

theorem State.Keeps.enterGuard (s : State) (x : Circuit) : s.Keeps (s.enterGuard x) := .setRecord (.of_zero (hticket := fun _ => rfl))

/-- A ticket composed from a record with a ticket flag is within its range (R126, R127). -/
theorem composeTicket_inRange {s : State} (hc : s.CountInv) (ht : s.TicketInv) (x : Circuit) (hx : (s.record x).ticket = true) :
    (composeTicket x (s.record x)).InRange := by
  have hr := hc.records x
  have htime : ((((s.record x).stamp.bind fun st => st.time).getD (0, 0)).1 < 10080) ∧
      (((s.record x).stamp.bind fun st => st.time).getD (0, 0)).2 < 60 := by
    cases hst : (s.record x).stamp with
    | none => simp
    | some st =>
      cases hm : st.time with
      | none => simp [hm]
      | some mn => simpa [hm] using ht.stamps x st mn.1 mn.2 hst hm
  refine ⟨?_, hr.credit, hr.owed, htime.1, htime.2, ?_, hr.paid⟩
  · by_contra hx'
    have := ht.incoming x (Nat.not_lt.mp hx')
    simp [hx] at this
  · simp only [composeTicket, ticketSeconds]
    split <;> omega

/-- The hold queue takes a ticket within its range, while it has a place and nobody waits (R128, R129). -/
theorem State.Keeps.enterHoldQueue {s : State} {t : TicketBody} (hroom : s.holdQueue.length < 8)
    (ht : s.CountInv → s.TicketInv → t.InRange) : s.Keeps (s.enterHoldQueue t) where
  queues h :=
    { h with
      held := by simpa [State.enterHoldQueue] using hroom
      closing := fun hw => absurd (h.closing hw) (Nat.ne_of_lt hroom) }
  counts h := { h with sequence := Nat.mod_lt _ (by decide) }
  tickets hc h :=
    { h with
      held := by
        intro k hk
        rcases List.mem_append.mp hk with hk | hk
        · exact h.held k hk
        · obtain rfl := List.mem_singleton.mp hk
          exact ⟨hc.sequence, ht hc h⟩ }

/-- With the hold queue full a ticket within its range waits (R128, R131). -/
theorem State.Keeps.enterClosing {s : State} {x : Circuit} {t : TicketBody} (hfull : ¬ s.holdQueue.length < 8)
    (ht : s.CountInv → s.TicketInv → t.InRange) : s.Keeps (s.enterClosing x t) := by
  have hrecord : s.Keeps (s.setRecord x { s.record x with state := .closing, calling := none, called := none, path := [] }) :=
    .setRecord .of_same
  exact {
    queues := fun h => { h with closing := fun _ => Nat.le_antisymm h.held (Nat.not_lt.mp hfull) }
    counts := fun h => { hrecord.counts h with }
    tickets := fun hc h =>
      { hrecord.tickets hc h with
        waiting := by
          intro e he
          rcases List.mem_append.mp he with he | he
          · exact h.waiting e he
          · obtain rfl := List.mem_singleton.mp he
            exact ht hc h } }

theorem State.Keeps.offerTicket {s : State} {x : Circuit} {t : TicketBody} (ht : s.CountInv → s.TicketInv → t.InRange) :
    s.Keeps (s.offerTicket x t) := by
  unfold State.offerTicket
  split
  next hroom => exact (State.Keeps.enterHoldQueue hroom ht).trans (.enterGuard _ _)
  next hfull => exact .enterClosing hfull ht

/-- The head ticket leaves and the oldest waiter takes its place (R131). -/
theorem State.Keeps.admitNext {s : State} {k : Ticket} {rest : List Ticket} (hk : s.holdQueue = k :: rest) :
    s.Keeps { s with holdQueue := rest }.admitWaiter := by
  have hlen : s.holdQueue.length = rest.length + 1 := by rw [hk]; rfl
  have hmem : ∀ q ∈ rest, q ∈ s.holdQueue := fun q hq => hk ▸ List.mem_cons_of_mem _ hq
  unfold State.admitWaiter
  split
  next x t waiters hw =>
    have hw : s.closingWaiters = (x, t) :: waiters := hw
    refine State.Keeps.trans (t := { s with holdQueue := rest, closingWaiters := waiters }.enterHoldQueue t) ?_ (.enterGuard _ _)
    exact {
      queues := fun h =>
        have hfull := h.closing (by simp [hw])
        have hnew : (rest ++ [({ seq := s.seqCounter, body := t } : Ticket)]).length = 8 := by simp; omega
        { h with held := hnew.le, closing := fun _ => hnew }
      counts := fun h => { h with sequence := Nat.mod_lt _ (by decide) }
      tickets := fun hc h =>
        { h with
          held := by
            intro q hq
            rcases List.mem_append.mp hq with hq | hq
            · exact h.held q (hmem q hq)
            · obtain rfl := List.mem_singleton.mp hq
              exact ⟨hc.sequence, h.waiting (x, t) (by simp [hw])⟩
          waiting := fun e he => h.waiting e (hw ▸ List.mem_cons_of_mem _ he) } }
  next hw =>
    have hw : s.closingWaiters = [] := hw
    exact {
      queues := fun h =>
        { h with held := by have := h.held; simp only; omega
                 closing := fun hne => absurd hw hne }
      tickets := fun _ h => { h with held := fun q hq => h.held q (hmem q hq) } }

theorem State.Keeps.writeWords (addr : Nat → Word) : ∀ (ws : List Word) (s : State) (i : Nat), s.Keeps (s.writeWords addr i ws)
  | [], s, _ => .refl s
  | w :: rest, s, i => (State.Keeps.writeMem s (addr i) w).trans (State.Keeps.writeWords addr rest _ (i + 1))

theorem State.writeWords_eq (addr : Nat → Word) : ∀ (ws : List Word) (s : State) (i : Nat),
    s.writeWords addr i ws = { s with mem := (s.writeWords addr i ws).mem }
  | [], _, _ => rfl
  | w :: rest, s, i => by
    show (s.writeMem (addr i) w).writeWords addr (i + 1) rest = _
    rw [State.writeWords_eq addr rest]
    rfl

/-- W advances at the end of a burst that owns the port, and the head ticket leaves (R133, R135). -/
theorem State.Keeps.advanceRing {u : State} {k : Ticket} {rest : List Ticket} (w : Nat) (full : Bool) (ho : u.owner = .ticketBurst)
    (hw : w < 16 * 2 ^ u.map.code) (hk : u.holdQueue = k :: rest) :
    u.Keeps { u with writeIndex := w, ringFull := full, holdQueue := rest, burst := .idle, owner := .none,
                     accessLeft := 0 }.admitWaiter := by
  have hadvanced :
      u.Keeps { u with writeIndex := w, ringFull := full, burst := .idle, owner := .none, accessLeft := 0 } :=
    { ring := fun hr => { hr with write := hw, before := fun hp => absurd ho (hr.before hp).2.2.2 } }
  exact hadvanced.trans (State.Keeps.admitNext (k := k) hk)

theorem State.Keeps.burstEnd (s : State) (ho : s.owner = .ticketBurst) : s.Keeps s.burstEnd := by
  unfold State.burstEnd
  split
  next k rest hk =>
    have hwords := State.writeWords_eq (s.map.ticketAddr s.writeIndex) k.words s 0
    refine (State.Keeps.writeWords (s.map.ticketAddr s.writeIndex) k.words s 0).trans ?_
    generalize s.writeWords (s.map.ticketAddr s.writeIndex) 0 k.words = u at hwords
    have hmap : u.map = s.map := by rw [hwords]
    refine State.Keeps.advanceRing (k := k) _ _ (by rw [hwords]; exact ho) ?_ (by rw [hwords]; exact hk)
    rw [hmap]
    exact Nat.mod_lt _ (by simp [RegionMap.ringSize])
  next => exact .arbiter (t := { s with burst := .idle, owner := .none, accessLeft := 0 }) rfl id (by simp)

/-- A judged read index stays below the ring size, while the part is ready (R133, R136). -/
theorem State.Keeps.judgeReadIndex (s : State) (v : Word) (hp : s.phase = .ready) : s.Keeps (s.judgeReadIndex v) := by
  unfold State.judgeReadIndex
  simp only
  split
  next => exact .report _ _
  next hv =>
    split
    next => exact .of_tracked
    next =>
      split
      next => exact { ring := fun hr => { hr with read := Nat.not_le.mp hv, before := fun h => absurd hp h } }
      next => exact .report _ _

end Sys2Proof.Machine
end

section
/-!
PROOF. Each operation of the blocks keeps the invariants, continued: the port, making and breaking, metering, the clock,
supervision and orders.
-/

namespace Sys2Proof.Machine

set_option Elab.async false

/-! ## The treatment of a cycle (spec/09) -/

theorem State.Keeps.passRead (s : State) (a : Word) (mperr : Bool) (pair : Option Line) : s.Keeps (s.passRead a mperr pair) := by
  unfold State.passRead
  split <;> exact .of_tracked

theorem State.Keeps.passWrite (s : State) (a v : Word) : s.Keeps (s.passWrite a v) :=
  (State.Keeps.writeMem s a v).trans .of_tracked

theorem State.Keeps.endCycle (s : State) (e : CycleEnd) (pair : Option Line) : s.Keeps (s.endCycle e pair) := .of_tracked

theorem State.Keeps.refuseWrite (s : State) : s.Keeps s.refuseWrite := .of_tracked

/-- A configuration word in LOADING: kept, or with the sixth a valid map is installed, its own or the preset one (R157, R158). -/
theorem State.Keeps.takeConfigWord (s : State) (taken : List Word) (v : Word) (hp : s.phase ≠ .ready) :
    s.Keeps (s.takeConfigWord taken v) := by
  unfold State.takeConfigWord
  split
  next =>
    split
    next hvalid => exact .install s _ _ _ hp hvalid
    next => exact .install s _ _ _ hp (by decide)
  next => exact .setPhase s _ hp Phase.noConfusion

theorem State.Keeps.capture (s : State) (i : OrderSlot) (word : Nat) (v : Word) : s.Keeps (s.capture i word v) := by
  unfold State.capture
  split
  next => exact .of_tracked
  next => exact .refl s

theorem State.Keeps.judgeOrderWord (s : State) (i : OrderSlot) (a v : Word) : s.Keeps (s.judgeOrderWord i a v) := by
  unfold State.judgeOrderWord
  split
  next => exact .passWrite s a v
  next =>
    split
    next => exact .refuseWrite s
    next =>
      split
      next => exact .setOwner
      next => exact .of_tracked

theorem State.Keeps.readyRead (s : State) (a : Word) (mperr : Bool) : s.Keeps (s.readyRead a mperr) := by
  unfold State.readyRead
  split
  case h_3 off _ => exact (State.Keeps.afterCellRead s off).trans (.endCycle _ _ _)
  case h_4 => exact .endCycle _ _ _
  all_goals exact .passRead s a mperr _

theorem State.Keeps.readyWrite (s : State) (a v : Word) (hp : s.phase = .ready) : s.Keeps (s.readyWrite a v) := by
  unfold State.readyWrite
  split
  case h_1 => exact .passWrite s a v
  case h_2 off _ =>
    split
    next => exact .judgeOrderWord s _ a v
    next => exact (State.Keeps.passWrite s a v).trans (.capture _ _ _ _)
  case h_3 off _ =>
    split
    next => exact (State.Keeps.passWrite s a v).trans (.judgeReadIndex _ v hp)
    next => exact .passWrite s a v
  all_goals exact .refuseWrite s

theorem State.Keeps.performCycle (s : State) (c : Cycle) : s.Keeps (s.performCycle c) := by
  unfold State.performCycle
  split
  next => exact .endCycle s _ _
  next taken hp =>
    split
    next => exact .passRead s _ _ _
    next => exact (State.Keeps.takeConfigWord s taken _ (by simp [hp])).trans (.endCycle _ _ _)
  next hp =>
    split
    next => exact .readyRead s _ _
    next => exact .readyWrite s _ _ hp

theorem State.Keeps.passedAccessDone (s : State) : s.Keeps s.passedAccessDone := by
  unfold State.passedAccessDone
  split
  next => exact (State.Keeps.performCycle s _).trans (.freePort _)
  next => exact .freePort s

/-! ## The arbiter (R163, R164) -/

/-- Outside READY the blocks ask for nothing (R157). -/
theorem State.Keeps.raiseRequests (s : State) : s.Keeps s.raiseRequests := by
  refine .arbiter s.raiseRequests_arbiterOnly ?_ fun hp hb ho => ?_
  · rw [State.raiseRequests_eq]
    exact id
  · have hnot : s.raiseRequests = s := by simp [State.raiseRequests, State.isReady, hp]
    rw [hnot]
    exact ⟨hb, ho⟩

theorem State.choosePosting_owner (s : State) (h : s.owner ≠ .ticketBurst) : s.choosePosting.owner ≠ .ticketBurst := by
  unfold State.choosePosting
  split
  next => exact Owner.noConfusion
  next => split <;> first | exact Owner.noConfusion | exact h

/-- A grant of the 716 gives the port to a burst only if one was asked for (R134, R163). -/
theorem State.Keeps.grantPart (s : State) : s.Keeps s.grantPart := by
  refine .arbiter s.grantPart_arbiterOnly (fun _ => ?_) fun _ hb ho => ?_
  · unfold State.grantPart State.grantMeter State.choosePosting
    simp only
    (repeat' split) <;> simp [State.startPosting]
  · unfold State.grantPart State.grantMeter
    simp only [hb, if_false]
    split
    next => exact ⟨hb, Owner.noConfusion⟩
    next =>
      split
      next => exact ⟨hb, Owner.noConfusion⟩
      next =>
        have hbefore := State.choosePosting_arbiterOnly { s with grantCount := 0, meterRequest := false }
        refine ⟨?_, State.choosePosting_owner _ ho⟩
        unfold State.choosePosting
        (repeat' split) <;> exact hb

/-- The processor's grant raises the count only below the limit while the 716 waits (R164). -/
theorem State.Keeps.grantProcessor (s : State) (whole : Bool) (hw : s.processorWins = true) : s.Keeps (s.grantProcessor whole) := by
  have hlimit : s.partWaits = true → s.grantCount < 8 := by
    intro hp
    simp only [State.processorWins, hp, Config.grantLimit, Bool.and_eq_true, Bool.not_true, Bool.false_or] at hw
    obtain ⟨-, hlt⟩ := hw
    exact of_decide_eq_true hlt
  unfold State.grantProcessor
  split
  next c rest _ =>
    have hcount : s.Keeps { s with grantCount := if s.partWaits then s.grantCount + 1 else 0 } := by
      refine .arbiter rfl (fun _ => ?_) fun _ hb ho => ⟨hb, ho⟩
      simp only
      split
      next hp => exact hlimit hp
      next => exact Nat.zero_le _
    exact .ite (fun _ => hcount.trans .setOwner) fun _ => hcount.trans (.performCycle _ c)
  next => exact .refl s

theorem State.Keeps.arbitrate (whole : Bool) : ∀ (n : Nat) (s : State), s.Keeps (arbitrate whole n s)
  | 0, s => .refl s
  | n + 1, s => by
    rw [arbitrate_succ]
    refine (State.Keeps.raiseRequests s).trans ?_
    split
    next => exact .refl _
    next =>
      split
      next hw => exact (State.Keeps.grantProcessor _ whole hw).trans (State.Keeps.arbitrate whole n _)
      next =>
        split
        next => exact (State.Keeps.grantPart _).trans (State.Keeps.arbitrate whole n _)
        next => exact .refl _

theorem State.Keeps.askPort (s : State) : s.Keeps s.askPort := .arbitrate false _ s

theorem State.Keeps.presentCycle (s : State) (c : Cycle) (later : Bool) : s.Keeps (s.presentCycle c later) := by
  unfold State.presentCycle
  split
  next => exact .of_tracked
  next =>
    simp only
    refine State.Keeps.trans (t := { s with ends := [] }.endPassedAccess) ?_ ?_
    · unfold State.endPassedAccess
      split
      next => exact (State.Keeps.of_tracked (t := { s with ends := [] })).trans (.passedAccessDone _)
      next => exact .of_tracked
    · generalize { s with ends := [] }.endPassedAccess = u
      exact (State.Keeps.of_tracked (t := { u with cycles := u.cycles ++ [c] })).trans (.arbitrate _ _ _)

theorem State.Keeps.stretchExpired (s : State) : s.Keeps s.stretchExpired := by
  unfold State.stretchExpired
  split
  next => exact (State.Keeps.refuseWrite s).trans (.askPort _)
  next => exact .refl s
  next => exact .refl s

/-! ## Making and breaking paths (spec/03) -/

theorem State.Keeps.markPoint (s : State) (x : Circuit) (xp : Crosspoint) (m : Mark) : s.Keeps (s.markPoint x xp m) :=
  .setRecord .of_same

theorem State.Keeps.issueMake (s : State) (x : Circuit) (xp : Crosspoint) : s.Keeps (s.issueMake x xp) :=
  (State.Keeps.markPoint s x xp .inFlight).trans .of_tracked

theorem State.Keeps.issueBreak (s : State) (x : Circuit) (xp : Crosspoint) : s.Keeps (s.issueBreak x xp) :=
  (State.Keeps.markPoint s x xp .inFlight).trans .of_tracked

theorem State.Keeps.startMakeJob (s : State) (x : Circuit) : s.Keeps (s.startMakeJob x) := by
  have hset : s.Keeps (s.setRecord x { s.record x with state := .setting }) := .setRecord .of_same
  unfold State.startMakeJob
  simp only
  split
  next => exact hset.trans (.issueMake _ _ _)
  next => exact hset

theorem State.Keeps.grantSlot (s : State) : s.Keeps s.grantSlot := by
  unfold State.grantSlot
  split
  next i _ x rest _ _ =>
    exact (State.Keeps.of_tracked (t := { s with waitList := rest }.setOperateSlot i (some x))).trans (.startMakeJob _ x)
  next => exact .refl s
  next => exact .refl s

theorem State.Keeps.freeSlotOf (s : State) (x : Circuit) : s.Keeps (s.freeSlotOf x) :=
  (State.Keeps.of_tracked (t := { s with operateSlots := s.operateSlots.map fun o => if o = some x then none else o })).trans
    (.grantSlot _)

theorem State.Keeps.joinWaitList (s : State) (x : Circuit) : s.Keeps (s.joinWaitList x) :=
  (State.Keeps.of_tracked (t := { s with waitList := s.waitList ++ [x] })).trans (.grantSlot _)

theorem State.Keeps.freeLines (s : State) (x : Circuit) : s.Keeps (s.freeLines x) :=
  (State.Keeps.setBusy s _ _).trans (.setBusy _ _ _)

theorem State.Keeps.releaseRequest (s : State) (x : Circuit) : s.Keeps (s.releaseRequest x) := .of_tracked

/-- The completion of a break job: its ticket, if it yields one, is composed from the record as it stood (R37, R126). -/
theorem State.Keeps.breakComplete (s : State) (x : Circuit) : s.Keeps (s.breakComplete x) := by
  have hfreed : s.Keeps (((s.releaseRequest x).freeLines x).modifyRecord x fun r => { r with path := [] }) :=
    ((State.Keeps.releaseRequest s x).trans (.freeLines _ x)).trans (.setRecord .of_same)
  unfold State.breakComplete
  simp only
  split
  next hy =>
    have hticket : (s.record x).ticket = true := by
      simp only [CallRecord.yieldsTicket, Bool.and_eq_true] at hy
      exact hy.1
    have hrecord : (((s.releaseRequest x).freeLines x).modifyRecord x fun r => { r with path := [] }).record x =
        { s.record x with path := [] } := by
      rw [State.modifyRecord_eq, State.record_setRecord_same, State.freeLines_eq]
      rfl
    refine hfreed.trans (.offerTicket fun hc ht => ?_)
    have hrange := composeTicket_inRange hc ht x (by rw [hrecord]; exact hticket)
    rw [hrecord] at hrange
    exact hrange
  next => exact hfreed.trans (.enterGuard _ x)

end Sys2Proof.Machine
end

section
/-!
PROOF. Each operation keeps the invariants, continued: clearing and the make job, metering, the clock, supervision and orders.
-/

namespace Sys2Proof.Machine

set_option Elab.async false

/-! ## Clearing and the make job (spec/02, spec/03) -/

theorem State.Keeps.breakNext (s : State) (x : Circuit) : s.Keeps (s.breakNext x) := by
  unfold State.breakNext
  split
  next => exact .issueBreak s x _
  next => exact .breakComplete s x

theorem State.Keeps.markClearing (s : State) (x : Circuit) (c : ClearCause) : s.Keeps (s.markClearing x c) := by
  have hcleared : s.Keeps (s.setRecord x { s.record x with
      state := .clearing, cause := some c, settle := none, calledClear := none, grace := none, releasePending := false }) :=
    .setRecord (.of_same (hgrace := .inr rfl))
  exact (hcleared.trans .of_tracked).trans (.report _ _)

theorem State.Keeps.enterClearing (s : State) (x : Circuit) (c : ClearCause) : s.Keeps (s.enterClearing x c) :=
  (State.Keeps.markClearing s x c).trans (.breakNext _ x)

theorem State.Keeps.makeComplete (s : State) (x : Circuit) : s.Keeps (s.makeComplete x) :=
  ((State.Keeps.freeSlotOf s x).trans (.setRecord .of_same)).trans (.handConnectResult _ x _)

theorem State.Keeps.pathFaultEnd (s : State) (x : Circuit) : s.Keeps (s.pathFaultEnd x) :=
  ((State.Keeps.freeSlotOf s x).trans (.handConnectResult _ x _)).trans (.enterClearing _ x _)

theorem State.Keeps.releaseEnd (s : State) (x : Circuit) : s.Keeps (s.releaseEnd x) :=
  ((State.Keeps.freeSlotOf s x).trans (.handConnectResult _ x _)).trans (.enterClearing _ x _)

theorem State.Keeps.rehunt {s : State} {x : Circuit} {h : Hunted} (hh : s.rehunt x = some h) :
    s.Keeps h.after ∧ h.circuit.val < 48 := by
  unfold State.rehunt at hh
  simp only at hh
  split at hh
  next =>
    split at hh
    next => exact State.Keeps.localHunt hh
    next => cases hh
    next => cases hh
  next =>
    split at hh
    next => exact State.Keeps.outgoingHunt hh
    next => cases hh
  next => cases hh

/-- The call moves to a cord or an outgoing junction: its new record and the failed one both start from 0 (R59). -/
theorem State.Keeps.moveCall {s : State} {x : Circuit} {h : Hunted} (hafter : s.Keeps h.after) (hx : h.circuit.val < 48) :
    s.Keeps (s.moveCall x h) := by
  have hmoved : s.Keeps (h.after.setRecord h.circuit (movedRecord (s.record x) h.circuit h.path)) :=
    hafter.trans (.setRecord (.of_zero (hticket := fun hx' => absurd hx' (Nat.not_le.mpr hx))))
  have hbusy := (hmoved.trans (.setBusy _ (s.record x).calling (some h.circuit))).trans
    (.setBusy _ (calledLine (s.record x).called) (some h.circuit))
  have hfailed := hbusy.trans (.setRecord (x := x) (r := { CallRecord.blank .setting with path := (s.record x).path })
    (.of_zero (hticket := fun _ => rfl)))
  exact ((hfailed.trans (.of_tracked (t := State.passSlot _ x h.circuit))).trans (.enterClearing _ x _)).trans (.startMakeJob _ _)

theorem State.Keeps.afterMakeFailure (s : State) (x : Circuit) : s.Keeps (s.afterMakeFailure x) := by
  refine .ite (fun _ => .releaseEnd s x) fun _ => .ite (fun _ => .pathFaultEnd s x) fun _ => ?_
  split
  next h hh =>
    obtain ⟨hafter, hx⟩ := State.Keeps.rehunt hh
    exact .moveCall hafter hx
  next => exact .pathFaultEnd s x

theorem State.Keeps.makeDone (s : State) (x : Circuit) (xp : Crosspoint) : s.Keeps (s.makeDone x xp) := by
  have hmarked := State.Keeps.markPoint s x xp .made
  refine .ite (fun _ => .refl s) fun _ => .ite (fun _ => hmarked.trans (.releaseEnd _ x)) fun _ => ?_
  split
  next next _ => exact hmarked.trans (.issueMake _ x next)
  next => exact hmarked.trans (.makeComplete _ x)

theorem State.Keeps.makeFailed (s : State) (x : Circuit) (xp : Crosspoint) : s.Keeps (s.makeFailed x xp) :=
  .ite (fun _ => .refl s) fun _ =>
    ((State.Keeps.markPoint s x xp .unmade).trans (.recordFault _ xp .fail)).trans (.afterMakeFailure _ x)

theorem State.Keeps.makeTimedOut (s : State) (x : Circuit) (xp : Crosspoint) : s.Keeps (s.makeTimedOut x xp) :=
  .ite (fun _ => .refl s) fun _ =>
    ((State.Keeps.markPoint s x xp .made).trans (.recordFault _ xp .makeTimeout)).trans (.afterMakeFailure _ x)

theorem State.Keeps.breakDone (s : State) (x : Circuit) (xp : Crosspoint) : s.Keeps (s.breakDone x xp) :=
  .ite (fun _ => .refl s) fun _ => (State.Keeps.markPoint s x xp .unmade).trans (.breakNext _ x)

theorem State.Keeps.breakFaulted (s : State) (x : Circuit) (xp : Crosspoint) : s.Keeps (s.breakFaulted x xp) :=
  .ite (fun _ => .refl s) fun _ =>
    ((State.Keeps.markPoint s x xp .unmade).trans (.recordBreakFault _ xp)).trans (.breakNext _ x)

theorem State.Keeps.matched {f : State → Circuit → State} (hf : ∀ (s : State) (x : Circuit), s.Keeps (f s x)) (s : State)
    (k : JobKind) (xp : Crosspoint) : s.Keeps (s.matched k xp f) := by
  unfold State.matched
  split
  next => exact ((State.Keeps.of_tracked (t := s.dropOutstanding k xp)).trans (hf _ _)).trans (.askPort _)
  next => exact .refl s

theorem State.Keeps.received {f : State → Circuit → Crosspoint → State}
    (hf : ∀ (s : State) (x : Circuit) (xp : Crosspoint), s.Keeps (f s x xp)) (s : State) (fail : Bool) (k : JobKind) (r : Response) :
    s.Keeps (s.received fail k r f) := by
  unfold State.received
  split
  next xp _ => exact .matched (fun s x => hf s x xp) s k xp
  next => exact .refl s

theorem State.Keeps.beginCommand (s : State) : s.Keeps s.beginCommand := by
  unfold State.beginCommand
  split <;> exact .of_tracked

theorem State.Keeps.commandSent (s : State) : s.Keeps s.commandSent := by
  have hbegun : s.Keeps (if s.onWire.isNone then s.beginCommand else s) := .ite (fun _ => .beginCommand s) fun _ => .refl s
  unfold State.commandSent
  simp only
  split
  next c _ => exact (hbegun.trans .of_tracked).trans (.beginCommand _)
  next => exact hbegun

/-! ## Pulses and the tick (spec/05, spec/06) -/

theorem saturatingSucc_le {n limit : Nat} (h : n ≤ limit) : saturatingSucc n limit ≤ limit := by
  unfold saturatingSucc
  split <;> omega

theorem State.Keeps.chargeCaller (s : State) (x : Circuit) : s.Keeps (s.chargeCaller x) := by
  unfold State.chargeCaller
  split
  next l _ => exact .chargeLine s l
  next => exact .refl s

/-- A record whose counts alone have changed, and stay in range when those of the old one were. -/
theorem State.RecordOk.of_counts {s : State} {x : Circuit} {r : CallRecord} (hcounts : s.CountInv → r.CountInv)
    (hstamp : r.stamp = (s.record x).stamp := by rfl) (hticket : r.ticket = (s.record x).ticket := by rfl) : s.RecordOk x r :=
  ⟨hcounts, fun _ hst => .inl (hstamp ▸ hst), fun _ ht => hticket ▸ ht⟩

theorem State.Keeps.ordinaryPulse (s : State) (x : Circuit) : s.Keeps (s.ordinaryPulse x) := by
  refine State.Keeps.trans (.setRecord (.of_counts fun h => ?_)) (.chargeCaller _ x)
  exact { h.records x with paid := saturatingSucc_le (h.records x).paid }

theorem State.Keeps.startGrace (s : State) (x : Circuit) : s.Keeps (s.startGrace x) := by
  have hgrace : s.Keeps (s.setRecord x { s.record x with grace := some Config.graceTicks }) :=
    .setRecord (.of_counts fun h => { h.records x with grace := by rintro n ⟨⟩; decide })
  exact ((hgrace.trans (.issuePayTone _ x)).trans (.setRecord .of_same)).trans (.report _ _)

theorem State.Keeps.paidPulse (s : State) (x : Circuit) : s.Keeps (s.paidPulse x) := by
  have hpaid : s.Keeps (s.setRecord x { s.record x with
      credit := (s.record x).credit - 1, paid := saturatingSucc (s.record x).paid Config.countMax }) :=
    .setRecord (.of_counts fun h =>
      { h.records x with
        credit := (Nat.sub_le _ _).trans (h.records x).credit, paid := saturatingSucc_le (h.records x).paid })
  have hcharged := hpaid.trans (.chargeCaller _ x)
  exact .ite (fun _ => hcharged.trans (.startGrace _ x)) fun _ => hcharged

theorem State.Keeps.owedPulse (s : State) (x : Circuit) : s.Keeps (s.owedPulse x) := by
  have howed : s.Keeps (s.setRecord x { s.record x with owed := saturatingSucc (s.record x).owed Config.owedMax }) :=
    .setRecord (.of_counts fun h => { h.records x with owed := saturatingSucc_le (h.records x).owed })
  exact .ite (fun _ => howed) fun _ => howed.trans (.startGrace _ x)

theorem State.Keeps.pulse (s : State) (x : Circuit) : s.Keeps (s.pulse x) :=
  .ite (fun _ => .ite (fun _ => .owedPulse s x) fun _ => .paidPulse s x) fun _ => .ordinaryPulse s x

theorem State.Keeps.pulses (x : Circuit) : ∀ (n : Nat) (s : State), s.Keeps (s.pulses x n)
  | 0, s => .refl s
  | n + 1, s => (State.Keeps.pulse s x).trans (State.Keeps.pulses x n _)

/-- No increment exceeds the unit of a pulse, so one pulse a tick is taken out (R85, R89). -/
theorem tariffIncrement_le (i : Nat) : tariffIncrement i ≤ 65536 := by
  unfold tariffIncrement
  split
  next => omega
  next h =>
    refine Nat.le_of_lt_succ (Nat.div_lt_of_lt_mul ?_)
    omega

theorem State.Keeps.accumulate (s : State) (x : Circuit) : s.Keeps (s.accumulate x) := by
  have hincrement : s.CountInv → s.incrementFor x ≤ 65536 := by
    intro h
    rw [State.incrementFor, h.increment]
    exact tariffIncrement_le _
  refine .ite (fun hsum => ?_) fun hsum => ?_
  · refine State.Keeps.trans (.setRecord (.of_counts fun h => ?_)) (.pulse _ x)
    have hacc := (h.records x).acc
    have hinc := hincrement h
    exact { h.records x with acc := by simp only [Config.pulseUnit]; omega }
  · exact .setRecord (.of_counts fun h => { h.records x with acc := Nat.not_le.mp hsum })

theorem State.Keeps.advanceDuration (s : State) (x : Circuit) : s.Keeps (s.advanceDuration x) :=
  .setRecord (.of_counts fun h => { h.records x with duration := saturatingSucc_le (h.records x).duration })

theorem State.Keeps.graceExpired (s : State) (x : Circuit) : s.Keeps (s.graceExpired x) :=
  .ite (fun _ => .enterClearing s x _) fun _ => .refl s

theorem State.Keeps.countGrace (s : State) (x : Circuit) (ranBefore : Bool) : s.Keeps (s.countGrace x ranBefore) := by
  unfold State.countGrace
  split
  next n hn =>
    refine .ite (fun _ => .graceExpired s x) fun hlast => .setRecord (.of_counts fun h => ?_)
    have hrange := (h.records x).grace n hn
    exact { h.records x with grace := by rintro m ⟨⟩; omega }
  next => exact .refl s
  next => exact .refl s

theorem State.Keeps.tickRecord (s : State) (x : Circuit) : s.Keeps (s.tickRecord x) :=
  .ite (fun _ => ((State.Keeps.accumulate s x).trans (.advanceDuration _ x)).trans (.countGrace _ x _)) fun _ => .refl s

theorem State.Keeps.tickRecords (s : State) : s.Keeps s.tickRecords := .foldl State.Keeps.tickRecord _ s

theorem State.Keeps.chargeSettled (x : Circuit) : ∀ (n : Nat) (s : State), s.Keeps (s.chargeSettled x n)
  | 0, s => .refl s
  | n + 1, s => (State.Keeps.chargeCaller s x).trans (State.Keeps.chargeSettled x n _)

theorem creditedRecord_countInv {r : CallRecord} (h : r.CountInv) (n : Nat) : (creditedRecord r n).CountInv where
  acc := h.acc
  paid := Nat.min_le_left _ _
  owed := (Nat.sub_le _ _).trans h.owed
  credit := Nat.min_le_left _ _
  duration := h.duration
  grace m hm := by
    simp only [creditedRecord] at hm
    split at hm
    next => cases hm
    next => exact h.grace m hm

theorem State.Keeps.addCredit (s : State) (x : Circuit) (n : Nat) : s.Keeps (s.addCredit x n) :=
  (State.Keeps.setRecord (.of_counts fun h => creditedRecord_countInv (h.records x) n)).trans (.chargeSettled x _ _)

/-! ## The clock, the calendar and the tariff (spec/04) -/

theorem State.Keeps.bandChange (s : State) (b : TimeBand) : s.Keeps (s.bandChange b) := by
  refine State.Keeps.trans ?_ (.report _ _)
  refine (State.Keeps.of_tracked (t := { s with band := b })).trans (State.Keeps.records _ _ fun x => ?_)
  have hflagged := State.flagBandChanged_record { s with band := b } x
  unfold State.record at hflagged
  change State.RecordOk { s with band := b } x ({ s with band := b } : State).flagBandChanged.records[x]
  rw [hflagged]
  split
  next => exact .of_same
  next => exact .refl _ x

theorem State.Keeps.reevaluateBand (s : State) : s.Keeps s.reevaluateBand := .ite (fun _ => .refl s) fun _ => .bandChange s _

theorem State.Keeps.minuteRollover (s : State) : s.Keeps s.minuteRollover := by
  refine (State.Keeps.setClock s _ 0 0 (fun hm => ?_) (fun _ => by decide) fun _ => by decide).trans (.reevaluateBand _)
  split
  next hlt => exact hlt
  next => decide

theorem State.Keeps.advanceClock (s : State) : s.Keeps s.advanceClock :=
  .ite (fun h => .setClock s s.weekMinute s.second (s.tenths + 1) id id fun _ => Nat.succ_lt_succ h) fun _ =>
    .ite (fun h => .setClock s s.weekMinute (s.second + 1) 0 id (fun _ => Nat.succ_lt_succ h) fun _ => by decide) fun _ =>
      .minuteRollover s

theorem State.Keeps.meteringTick (s : State) : s.Keeps s.meteringTick :=
  ((State.Keeps.of_tracked (t := { s with tickDivider := 0 })).trans (.tickRecords _)).trans (.advanceClock _)

theorem State.Keeps.setTime (s : State) (minute second : Nat) (hm : minute < 10080) (hn : second < 60) :
    s.Keeps (s.setTime minute second) :=
  ((State.Keeps.setClock s minute second 0 (fun _ => hm) (fun _ => hn) fun _ => by decide).trans .of_tracked).trans
    (.reevaluateBand _)

theorem State.Keeps.loadCalendar (s : State) (i : Fin 16) (e : CalEntry) (he : e.minute < 10080) :
    s.Keeps (s.loadCalendar i e) := by
  have hset : s.Keeps { s with calendar := s.calendar.set i.val e i.isLt } :=
    { counts := fun h =>
        { h with
          calendar := fun j => by
            by_cases hj : i.val = j.val
            · simp [hj, he]
            · simpa [Vector.getElem_set, hj] using h.calendar j } }
  exact hset.trans (.reevaluateBand _)

theorem State.Keeps.loadTariff (s : State) (d : DistBand) (b : TimeBand) (initial interval : Nat) (hi : initial ≤ 3)
    (hn : interval ≤ 6000) : s.Keeps (s.loadTariff d b initial interval) where
  counts h :=
    { h with
      interval := fun d' b' => by
        rw [State.loadTariff_tariffEntry]
        split
        next => exact hn
        next => exact h.interval d' b'
      initial := fun d' b' => by
        rw [State.loadTariff_tariffEntry]
        split
        next => exact hi
        next => exact h.initial d' b'
      increment := fun d' b' => by
        rw [State.loadTariff_tariffEntry]
        split
        next => rfl
        next => exact h.increment d' b' }

/-! ## Supervision (spec/02) -/

theorem State.Keeps.answer (s : State) (x : Circuit) : s.Keeps (s.answer x) := by
  have hincoming : s.Keeps (s.setRecord x { s.record x with
      state := .answered, stamp := some { band := s.band, time := none } }) :=
    .setRecord ⟨fun h => { h.records x with }, by rintro st ⟨⟩; exact .inr (by simp), fun _ ht => ht⟩
  have hcounted : s.Keeps (s.setRecord x { s.record x with
      state := .answered, stamp := some { band := s.band, time := some (s.weekMinute, s.second) },
      timeUnsetAtAnswer := s.timeUnset, duration := 0, acc := 0 }) :=
    .setRecord ⟨fun h => { h.records x with acc := Nat.succ_pos _, duration := Nat.zero_le _ },
      by rintro st ⟨⟩; exact .inr (by simp), fun _ ht => ht⟩
  exact .ite (fun _ => hincoming.trans (.report _ _)) fun _ => (hcounted.trans (.report _ _)).trans (.pulses x _ _)

theorem State.Keeps.seize (s : State) (x : Circuit) : s.Keeps (s.seize x) :=
  State.Keeps.trans (.setRecord .of_same) (.report _ _)

theorem State.Keeps.enterFree (s : State) (x : Circuit) : s.Keeps (s.enterFree x) :=
  .setRecord (.of_zero (hticket := fun _ => rfl))

theorem State.Keeps.fAppeared (s : State) (x : Circuit) : s.Keeps (s.fAppeared x) :=
  .ite (fun _ => .seize s x) fun _ => .refl s

theorem State.Keeps.fDisappeared (s : State) (x : Circuit) : s.Keeps (s.fDisappeared x) := by
  unfold State.fDisappeared
  split
  case h_1 => exact (State.Keeps.enterFree s x).trans (.report _ _)
  case h_2 => exact .ite (fun _ => .refl s) fun _ => .enterClearing s x _
  case h_3 => exact .enterClearing s x _
  all_goals exact .refl s

theorem State.Keeps.bAppeared (s : State) (x : Circuit) : s.Keeps (s.bAppeared x) := by
  unfold State.bAppeared
  split
  case h_1 => exact .ite (fun _ => .refl s) fun _ => .answer s x
  case h_2 => exact .ite (fun _ => State.Keeps.trans (.setRecord .of_same) (.report _ _)) fun _ => .refl s
  all_goals exact .refl s

theorem State.Keeps.bDisappeared (s : State) (x : Circuit) : s.Keeps (s.bDisappeared x) :=
  .ite (fun _ => State.Keeps.trans (.setRecord .of_same) (.report _ _)) fun _ => .refl s

theorem State.Keeps.recognise (s : State) (p : Point) (present : Bool) : s.Keeps (s.recognise p present) := by
  have hset : s.Keeps (s.setPoint p { present := present, count := none }) := .setPoint (by simp)
  unfold State.recognise
  simp only
  split
  next => exact hset.trans (.fAppeared _ _)
  next => exact hset.trans (.fDisappeared _ _)
  next => exact hset.trans (.bAppeared _ _)
  next => exact hset.trans (.bDisappeared _ _)

/-- A count that has not reached its persistence is below 25 (R39). -/
theorem State.Keeps.scanPoint (s : State) (raw : BitVec 112) (p : Point) : s.Keeps (s.scanPoint raw p) := by
  refine .ite (fun _ => .setPoint (by simp)) fun _ => .ite (fun _ => .recognise s p _) fun hshort => .setPoint ?_
  rintro n ⟨⟩
  have hmax : ∀ b, persistence b ≤ 25 := by decide
  exact (Nat.lt_of_not_le hshort).le.trans (hmax _)

theorem State.Keeps.scanned (s : State) (raw : BitVec 112) : s.Keeps (s.scan raw) :=
  (State.Keeps.of_tracked (t := { s with scanPins := raw, scanDivider := 0 })).trans
    (.foldl (fun s p => State.Keeps.scanPoint s raw p) _ _)

theorem State.Keeps.settleExpired (s : State) (x : Circuit) : s.Keeps (s.settleExpired x) := by
  have hstopped : s.Keeps (s.setRecord x { s.record x with settle := none }) := .setRecord .of_same
  exact .ite (fun _ => .ite (fun _ => hstopped.trans (.enterClearing _ x _)) fun _ =>
    .ite (fun _ => hstopped.trans (.answer _ x)) fun _ => hstopped) fun _ => .refl s

theorem State.Keeps.calledClearExpired (s : State) (x : Circuit) : s.Keeps (s.calledClearExpired x) :=
  .ite (fun _ => .enterClearing s x _) fun _ => .refl s

theorem State.Keeps.guardExpired (s : State) (x : Circuit) : s.Keeps (s.guardExpired x) :=
  .ite (fun _ => .ite (fun _ => (State.Keeps.enterFree s x).trans (.seize _ x)) fun _ => .enterFree s x) fun _ => .refl s

end Sys2Proof.Machine
end

section
/-!
PROOF. Orders, the ends of sequences, resets, the clock period and every command keep the invariants; O4 to O8.
-/

namespace Sys2Proof.Machine

set_option Elab.async false

/-! ## Orders (spec/08, section 8.5) -/

/-- An order's rule keeps the invariants, whatever it comes to. -/
def OrderOutcome.Kept (s : State) : OrderOutcome → Prop
  | .result _ _ t => s.Keeps t
  | .admitted t => s.Keeps t
  | .later t => s.Keeps t

theorem State.Keeps.admitCall {s : State} {h : Hunted} {r : CallRecord} (hafter : s.Keeps h.after)
    (hr : h.after.RecordOk h.circuit r) : s.Keeps (admitCall h r) :=
  (((hafter.trans (.setRecord hr)).trans (.setBusy _ r.calling _)).trans (.setBusy _ (calledLine r.called) _)).trans
    (.joinWaitList _ _)

theorem applyConnectLocal_kept (i : OrderSlot) (w0 w1 : Word) (s : State) : (applyConnectLocal i w0 w1 s).Kept s := by
  unfold applyConnectLocal
  split
  next =>
    split
    next => exact .refl s
    next =>
      split
      next => exact .refl s
      next =>
        split
        next h hh =>
          obtain ⟨hafter, hx⟩ := State.Keeps.localHunt hh
          exact .admitCall hafter (.of_zero (hticket := fun hx' => absurd hx' (Nat.not_le.mpr hx)))
        next => exact .refl s
  next => exact .refl s
  next => exact .refl s

theorem applyConnectOutgoing_kept (i : OrderSlot) (w0 w1 w2 : Word) (s : State) : (applyConnectOutgoing i w0 w1 w2 s).Kept s := by
  unfold applyConnectOutgoing
  split
  next =>
    split
    next => exact .refl s
    next =>
      split
      next h hh =>
        obtain ⟨hafter, hx⟩ := State.Keeps.outgoingHunt hh
        exact .admitCall hafter (.of_zero (hticket := fun hx' => absurd hx' (Nat.not_le.mpr hx)))
      next => exact .refl s
  all_goals exact .refl s

theorem applyConnectIncoming_kept (i : OrderSlot) (w0 w1 : Word) (s : State) : (applyConnectIncoming i w0 w1 s).Kept s := by
  unfold applyConnectIncoming
  split
  next x b _ _ =>
    split
    next => exact .refl s
    next =>
      split
      next => exact .refl s
      next =>
        split
        next => exact .refl s
        next =>
          split
          next h hh => exact .admitCall (.incomingHunt hh) (.of_zero (hticket := fun _ => rfl))
          next => exact .refl s
  all_goals exact .refl s

theorem State.Keeps.releaseReserved (s : State) (x : Circuit) : s.Keeps (s.releaseReserved x) := by
  have hleft : s.Keeps { s with waitList := s.waitList.filter fun y => y ≠ x } := .of_tracked
  have hfreed := (((hleft.trans (.releaseRequest _ x)).trans (.freeLines _ x)).trans (.handConnectResult _ x .released)).trans
    (.enterFree _ x)
  exact .ite (fun _ => .ite (fun _ => hfreed.trans (.seize _ x)) fun _ => hfreed.trans (.report _ _)) fun _ => hfreed

theorem State.Keeps.releaseSetting (s : State) (x : Circuit) : s.Keeps (s.releaseSetting x) := by
  unfold State.releaseSetting
  split
  next xp _ =>
    have hwithdrawn : s.Keeps (s.withdraw (.makeCmd x xp)) := .of_tracked
    exact ((((hwithdrawn.trans (.markPoint _ x xp .unmade)).trans (.markClearing _ x .order)).trans (.freeSlotOf _ x)).trans
      (.handConnectResult _ x .released)).trans (.breakNext _ x)
  next => exact .setRecord .of_same

theorem applyRelease_kept (w0 : Word) (s : State) : (applyRelease w0 s).Kept s := by
  unfold applyRelease
  split
  next x _ =>
    split
    case h_1 => exact State.Keeps.releaseReserved s x
    case h_2 => exact State.Keeps.releaseSetting s x
    case h_3 => exact State.Keeps.enterClearing s x _
    case h_4 => exact State.Keeps.enterClearing s x _
    all_goals exact State.Keeps.refl s
  next => exact State.Keeps.refl s

theorem applyAddCredit_kept (w0 w1 : Word) (s : State) : (applyAddCredit w0 w1 s).Kept s := by
  unfold applyAddCredit
  split
  next x _ =>
    (repeat' split) <;> first | exact State.Keeps.refl s | exact State.Keeps.addCredit s x _
  next => exact State.Keeps.refl s

theorem applySetClass_kept (w0 w1 : Word) (s : State) : (applySetClass w0 w1 s).Kept s := by
  unfold applySetClass
  split
  next l c _ _ =>
    split
    next => exact State.Keeps.refl s
    next => exact State.Keeps.setLine (s := s) (l := l) (e := { s.line l with cls := c })
  all_goals exact State.Keeps.refl s

theorem applySetMeter_kept (i : OrderSlot) (w0 w1 w2 : Word) (s : State) : (applySetMeter i w0 w1 w2 s).Kept s := by
  unfold applySetMeter
  (repeat' split) <;> exact State.Keeps.of_tracked

theorem applyClearFaultMeter_kept (w1 : Word) (s : State) : (applyClearFaultMeter w1 s).Kept s := by
  unfold applyClearFaultMeter
  split
  next l _ => exact State.Keeps.setLine (s := s) (l := l) (e := { s.line l with fault := .none })
  next => exact State.Keeps.refl s

theorem applySetTime_kept (w0 w1 : Word) (s : State) : (applySetTime w0 w1 s).Kept s := by
  unfold applySetTime
  split
  next => exact State.Keeps.refl s
  next h =>
    obtain ⟨hminute, hsecond⟩ := not_or.mp h
    exact State.Keeps.setTime s _ _ (Nat.not_le.mp hminute) (Nat.lt_of_not_le hsecond)

theorem applyLoadTariff_kept (w0 w1 w2 : Word) (s : State) : (applyLoadTariff w0 w1 w2 s).Kept s := by
  unfold applyLoadTariff
  split
  next d _ =>
    split
    next => exact State.Keeps.refl s
    next h =>
      obtain ⟨hinterval, -⟩ := not_or.mp h
      exact State.Keeps.loadTariff s d _ _ _ (Nat.le_of_lt_succ (w1.extractLsb' 4 2).isLt) (Nat.not_lt.mp hinterval)
  next => exact State.Keeps.refl s

theorem applyLoadCalendar_kept (w0 w1 w2 : Word) (s : State) : (applyLoadCalendar w0 w1 w2 s).Kept s := by
  unfold applyLoadCalendar
  split
  next n _ =>
    split
    next => exact State.Keeps.loadCalendar s n _ (by decide)
    next =>
      split
      next hminute =>
        split
        next => exact State.Keeps.loadCalendar s n _ hminute
        next => exact State.Keeps.refl s
      next => exact State.Keeps.refl s
  next => exact State.Keeps.refl s

theorem applySetFault_kept (w0 w1 w2 : Word) (s : State) : (applySetFault w0 w1 w2 s).Kept s := by
  unfold applySetFault
  split
  next xp _ =>
    split
    next => exact State.Keeps.refl s
    next hnew =>
      split
      next hroom => exact State.Keeps.addFault s xp hnew hroom
      next => exact State.Keeps.refl s
  next => exact State.Keeps.refl s

theorem applyClearFault_kept (w0 w1 w2 : Word) (s : State) : (applyClearFault w0 w1 w2 s).Kept s := by
  unfold applyClearFault
  split
  next xp _ =>
    exact State.Keeps.setFaults s _ fun hlen honce => ⟨(List.length_filter_le _ _).trans hlen, honce.filter _⟩
  next => exact State.Keeps.refl s

theorem applyServiceLink_kept (w1 w2 : Word) (s : State) : (applyServiceLink w1 w2 s).Kept s := by
  unfold applyServiceLink
  split <;> exact State.Keeps.of_tracked

theorem applyServiceCircuit_kept (w1 w2 : Word) (s : State) : (applyServiceCircuit w1 w2 s).Kept s := by
  unfold applyServiceCircuit
  split <;> exact State.Keeps.of_tracked

theorem applyOrder_kept (e : OrderEntry) (s : State) : (applyOrder e s).Kept s := by
  unfold applyOrder
  split
  case h_1 => exact applyConnectLocal_kept _ _ _ s
  case h_2 => exact applyConnectOutgoing_kept _ _ _ _ s
  case h_3 => exact applyConnectIncoming_kept _ _ _ s
  case h_4 => exact applyRelease_kept _ s
  case h_5 => exact applyAddCredit_kept _ _ s
  case h_6 => exact applySetClass_kept _ _ s
  case h_7 => exact applySetMeter_kept _ _ _ _ s
  case h_8 => exact applySetTime_kept _ _ s
  case h_9 => exact applyLoadTariff_kept _ _ _ s
  case h_10 => exact applyLoadCalendar_kept _ _ _ s
  case h_11 => exact applySetFault_kept _ _ _ s
  case h_12 =>
    split
    next => exact applyClearFaultMeter_kept _ s
    next => exact applyClearFault_kept _ _ _ s
  case h_13 =>
    split
    next => exact applyServiceLink_kept _ _ s
    next =>
      split
      next => exact applyServiceCircuit_kept _ _ s
      next => exact State.Keeps.refl s
  case h_14 => exact State.Keeps.refl s

/-! ## The dispatcher (R142, R145, R148) -/

theorem State.Keeps.setSlotState (s : State) (i : OrderSlot) (st : SlotState) : s.Keeps (s.setSlotState i st) := .of_tracked

theorem State.Keeps.dispatch (s : State) (e : OrderEntry) : s.Keeps (s.dispatch e) := by
  have hflight : s.Keeps (s.setSlotState e.slot .inFlight) := .setSlotState s _ _
  have hkept := applyOrder_kept e (s.setSlotState e.slot .inFlight)
  unfold State.dispatch
  split
  next code x t ht =>
    rw [ht] at hkept
    exact (hflight.trans hkept).trans .of_tracked
  next t ht =>
    rw [ht] at hkept
    exact hflight.trans hkept
  next t ht =>
    rw [ht] at hkept
    exact (hflight.trans hkept).trans .of_tracked

theorem State.Keeps.keepPlace (s : State) : s.Keeps s.keepPlace := by
  unfold State.keepPlace
  split <;> exact .of_tracked

theorem State.Keeps.runDispatcher : ∀ (n : Nat) (s : State), s.Keeps (runDispatcher n s)
  | 0, s => .refl s
  | n + 1, s => by
    unfold Sys2Proof.Machine.runDispatcher
    split
    next e rest _ hq =>
      have hrest : s.Keeps { s with orderQueue := rest } := .orderQueue s rest fun h => by rw [hq] at h; exact Nat.le_of_succ_le h
      exact ((hrest.trans (.keepPlace _)).trans (.dispatch _ e)).trans (State.Keeps.runDispatcher n _)
    next => exact .refl s
    next => exact .refl s

/-- An order that may be taken has a place in the queue (R144, R145). -/
theorem State.Keeps.takeOrder (s : State) (e : OrderEntry) (h : s.mayTake e = true) : s.Keeps (s.takeOrder e) := by
  have hroom : s.orderQueue.length < 8 := by
    simp only [State.mayTake, Bool.and_eq_true, decide_eq_true_eq] at h
    exact Nat.lt_of_le_of_lt (Nat.le_add_right _ _) h.2
  have hqueued : s.Keeps { s with orderQueue := s.orderQueue ++ [e] } := .orderQueue s _ fun _ => by simpa using hroom
  exact (hqueued.trans (.setSlotState _ _ _)).trans (.runDispatcher _ _)

theorem State.Keeps.giveOrder (s : State) (e : OrderEntry) : s.Keeps (s.giveOrder e) :=
  .ite (fun h => (State.Keeps.takeOrder s e h).trans (.askPort _)) fun _ => .refl s

/-! ## The ends of sequences (R145, R151, R162, R165) -/

theorem State.Keeps.orderWriteDone (s : State) (a v : Word) : s.Keeps (s.orderWriteDone a v) := by
  have hended : s.Keeps (((s.writeMem a v).endCycle .prdy none).freePort) :=
    ((State.Keeps.writeMem s a v).trans (.endCycle _ _ _)).trans (.freePort _)
  unfold State.orderWriteDone
  simp only
  split
  case h_1 => exact .ite (fun h => hended.trans (.takeOrder _ _ h)) fun _ => hended
  all_goals exact hended

theorem State.Keeps.processorAccessDone (s : State) : s.Keeps s.processorAccessDone := by
  unfold State.processorAccessDone
  split
  next a v _ _ => exact .orderWriteDone s a v
  next => exact .freePort s
  next => exact .freePort s

theorem State.Keeps.readyDispatcher (s : State) (i : OrderSlot) : s.Keeps (s.readyDispatcher i) :=
  .ite (fun _ => .of_tracked) fun _ => .refl s

theorem State.Keeps.resultWriteDone (s : State) : s.Keeps s.resultWriteDone := by
  unfold State.resultWriteDone
  split
  next r rest _ =>
    have hwritten : s.Keeps ({ s with results := rest }.writeMem (s.map.slotAddr r.slot 3) (resultWord r)) :=
      (State.Keeps.of_tracked (t := { s with results := rest })).trans (.writeMem _ _ _)
    exact (((hwritten.trans (.setSlotState _ r.slot .idle)).trans (.readyDispatcher _ _)).trans (.freePort _)).trans (.runDispatcher _ _)
  next => exact .freePort s

theorem State.Keeps.finishOwner (s : State) : s.Keeps s.finishOwner := by
  unfold State.finishOwner
  split
  next => exact .refl s
  next => exact .processorAccessDone s
  next => exact .passedAccessDone s
  next => exact .resultWriteDone s
  next ho => exact .burstEnd s ho
  next => exact .setMeterDone s
  next p _ => exact .ite (fun _ => .postingDone s p) fun _ => .postingCorrupt s p

theorem State.Keeps.postingEndEvent (s : State) : s.Keeps s.postingEndEvent := by
  unfold State.postingEndEvent
  split
  next p _ => exact .ite (fun _ => (State.Keeps.postingDone s p).trans (.askPort _)) fun _ => .refl s
  next => exact .refl s

theorem State.Keeps.postingParityEvent (s : State) : s.Keeps s.postingParityEvent := by
  unfold State.postingParityEvent
  split
  next p _ => exact (State.Keeps.postingParity s p).trans (.askPort _)
  next => exact .refl s

theorem State.Keeps.postingCorruptEvent (s : State) : s.Keeps s.postingCorruptEvent := by
  unfold State.postingCorruptEvent
  split
  next p _ => exact .ite (fun _ => .refl s) fun _ => (State.Keeps.postingCorrupt s p).trans (.askPort _)
  next => exact .refl s

/-! ## Resets (R156, R167) -/

/-- The reset state is safe: every count is 0, every queue empty and every ring index 0. -/
theorem State.reset_safe : State.reset.Safe where
  store := State.reset_mem_wf
  queues :=
    { reports := by decide, orders := by decide, held := by decide, closing := fun h => absurd rfl h,
      faults := by decide, faultsOnce := by decide, grants := by decide }
  counts :=
    { records := fun x => by
        simp only [State.record, State.reset, Fin.getElem_fin, Vector.getElem_replicate]
        exact ⟨by decide, by decide, by decide, by decide, by decide, by rintro n ⟨⟩⟩
      pulses := fun l => by simp [State.line, State.reset]
      minute := by decide
      second := by decide
      tenths := by decide
      calendar := fun i => by simp [State.reset]
      interval := fun d b => by simp [State.tariffEntry, State.reset]
      initial := fun d b => by simp [State.tariffEntry, State.reset]
      increment := fun d b => by simp [State.tariffEntry, State.reset, tariffIncrement]
      sequence := by decide }
  mapped := fun h => nomatch h
  tickets :=
    { held := fun _ h => nomatch h
      waiting := fun _ h => nomatch h
      stamps := fun x st m n h => by simp [State.record, State.reset, CallRecord.blank] at h
      incoming := fun x _ => by simp [State.record, State.reset, CallRecord.blank] }
  ring := { write := by decide, read := by decide, before := fun _ => ⟨rfl, rfl, by decide, by decide⟩ }
  scan := fun p n h => by simp [State.reset] at h

/-- Master reset keeps of the part's state the call store alone. -/
theorem State.Keeps.resetValues (s : State) : s.Keeps s.resetValues where
  queues _ := State.QueueInv.congr (h := State.reset_safe.queues)
  counts _ := State.CountInv.congr (h := State.reset_safe.counts)
  mapped _ := State.MapInv.congr (h := State.reset_safe.mapped)
  tickets _ _ := State.TicketInv.congr (h := State.reset_safe.tickets)
  ring _ := State.RingInv.congr (h := State.reset_safe.ring)
  scan _ := State.ScanInv.congr (h := State.reset_safe.scan)

theorem State.Keeps.releaseMrst (s : State) (loadcfg : Bool) (h : s.isHeld = true) : s.Keeps (s.releaseMrst loadcfg) := by
  have hp : s.phase ≠ .ready := by
    intro hp
    simp [State.isHeld, hp] at h
  exact .ite (fun _ => .setPhase s _ hp Phase.noConfusion) fun _ => .install s _ _ _ hp (by decide)

theorem State.Keeps.endStretched (s : State) : s.Keeps s.endStretched := by
  unfold State.endStretched
  split <;> exact .of_tracked

theorem State.Keeps.partialReset (s : State) : s.Keeps s.partialReset := by
  have hport : s.Keeps s.finishOwner.resetPort := by
    refine ((State.Keeps.finishOwner s).trans (.endStretched _)).trans ?_
    exact (State.Keeps.arbiter (t := { s.finishOwner.endStretched with grantCount := 0, meterRequest := false }) rfl
      (fun _ => Nat.zero_le _) fun _ hb ho => ⟨hb, ho⟩).trans .of_tracked
  have hqueues : ∀ u : State, u.Keeps { u with orderQueue := [] } := fun u => .orderQueue u [] fun _ => Nat.zero_le _
  have hunbound : ∀ u : State, u.Keeps { u with records := u.records.map fun r => { r with boundSlot := none } } := by
    refine fun u => .records u _ fun x => ?_
    simp only [Fin.getElem_fin, Vector.getElem_map]
    exact .of_same
  have horders : s.finishOwner.resetPort.Keeps s.finishOwner.resetPort.resetOrders :=
    ((hqueues _).trans (hunbound _)).trans .of_tracked
  have hreports : ∀ u : State, u.Keeps u.resetReports := fun u => { queues := fun h => { h with reports := Nat.zero_le _ } }
  exact ((hport.trans horders).trans (hreports _)).trans (.askPort _)

/-! ## The clock period -/

theorem State.Keeps.countPeriod (s : State) : s.Keeps s.countPeriod := by
  have hrecords : s.Keeps { s with records := s.records.map CallRecord.countTimers } := by
    refine .records s _ fun x => ?_
    simp only [Fin.getElem_fin, Vector.getElem_map]
    exact .of_same
  exact hrecords.trans .of_tracked

theorem State.Keeps.dueWire (s : State) : s.Keeps s.dueWire := by
  unfold State.dueWire
  split
  next => exact .ite (fun _ => .commandSent s) fun _ => .refl s
  next => exact .ite (fun _ => .beginCommand s) fun _ => .refl s

theorem State.Keeps.timeOut (s : State) (o : Outstanding) : s.Keeps (s.timeOut o) := by
  unfold State.timeOut
  split
  next => exact .matched (fun s x => .makeTimedOut s x o.xp) s _ _
  next => exact .matched (fun s x => .breakFaulted s x o.xp) s _ _

theorem State.Keeps.dueRecord (s : State) (x : Circuit) : s.Keeps (s.dueRecord x) := by
  let s1 := if ranOut (s.record x).settle then s.settleExpired x else s
  let s2 := if ranOut (s1.record x).calledClear then s1.calledClearExpired x else s1
  have hsettle : s.Keeps s1 := .ite (fun _ => .settleExpired s x) fun _ => .refl s
  have hcalled : s1.Keeps s2 := .ite (fun _ => .calledClearExpired _ x) fun _ => .refl _
  exact (hsettle.trans hcalled).trans (.ite (fun _ => .guardExpired _ x) fun _ => .refl _)

theorem State.Keeps.clockPeriod (s : State) : s.Keeps s.clockPeriod := by
  refine .ite (fun _ => .refl s) fun _ => (State.Keeps.countPeriod s).trans ?_
  have hport (u : State) : u.Keeps u.duePort := .ite (fun _ => .finishOwner u) fun _ => .refl u
  have hstretch (u : State) : u.Keeps u.dueStretch := .ite (fun _ => .refuseWrite u) fun _ => .refl u
  have hresponses (u : State) : u.Keeps u.dueResponses := .foldl State.Keeps.timeOut _ u
  have hrecords (u : State) : u.Keeps u.dueRecords := .foldl State.Keeps.dueRecord _ u
  have hscan (u : State) : u.Keeps u.dueScan := .ite (fun _ => .scanned u _) fun _ => .refl u
  have htick (u : State) : u.Keeps u.dueTick := .ite (fun _ => .meteringTick u) fun _ => .refl u
  exact ((((((((hport _).trans (hstretch _)).trans (.dueWire _)).trans (hresponses _)).trans (hrecords _)).trans (hscan _)).trans
    (htick _)).trans (.askPort _))

/-! ## Every command -/

/-- A command that is no event while MRST is active. -/
theorem State.Keeps.unlessHeld {s t : State} (h : s.Keeps t) : s.Keeps (if s.isHeld then s else t) :=
  .ite (fun _ => .refl s) fun _ => h

/-- Every command keeps the invariants. -/
theorem exec_keeps (i : Instr) {s t : State} (h : exec i s = .next t) : s.Keeps t := by
  cases i <;> obtain rfl := Host.Outcome.next.inj h
  case masterReset =>
    exact (State.Keeps.finishOwner s).trans (.resetValues _)
  case mrstRelease loadcfg =>
    exact .ite (fun hh => .releaseMrst s loadcfg hh) fun _ => .refl s
  case partialReset => exact .unlessHeld (.partialReset s)
  case stretchTimerExpiry => exact .unlessHeld (.stretchExpired s)
  case orderTaken =>
    exact .unlessHeld (.ite (fun _ => (State.Keeps.processorAccessDone s).trans (.askPort _)) fun _ => .refl s)
  case resultWriteComplete =>
    exact .unlessHeld (.ite (fun _ => (State.Keeps.resultWriteDone s).trans (.askPort _)) fun _ => .refl s)
  case ticketBurstEnd =>
    exact .unlessHeld (.ite (fun ho => (State.Keeps.burstEnd s ho).trans (.askPort _)) fun _ => .refl s)
  case setMeterWriteComplete =>
    exact .unlessHeld (.ite (fun _ => (State.Keeps.setMeterDone s).trans (.askPort _)) fun _ => .refl s)
  case postingEnd => exact .unlessHeld (.postingEndEvent s)
  case postingParityError => exact .unlessHeld (.postingParityEvent s)
  case postingRecordCorrupt => exact .unlessHeld (.postingCorruptEvent s)
  case meteringTick => exact .unlessHeld ((State.Keeps.meteringTick s).trans (.askPort _))
  case graceExpiry x => exact .unlessHeld ((State.Keeps.graceExpired s x).trans (.askPort _))
  case minuteRollover => exact .unlessHeld (.minuteRollover s)
  case scan raw => exact .unlessHeld ((State.Keeps.scanned s raw).trans (.askPort _))
  case fAppears x => exact .unlessHeld (.recognise s _ _)
  case fDisappears x => exact .unlessHeld ((State.Keeps.recognise s _ _).trans (.askPort _))
  case bAppears x => exact .unlessHeld ((State.Keeps.recognise s _ _).trans (.askPort _))
  case bDisappears x => exact .unlessHeld (.recognise s _ _)
  case settleExpiry x => exact .unlessHeld ((State.Keeps.settleExpired s x).trans (.askPort _))
  case calledClearExpiry x => exact .unlessHeld ((State.Keeps.calledClearExpired s x).trans (.askPort _))
  case guardExpiry x => exact .unlessHeld (.guardExpired s x)
  case commandSent => exact .unlessHeld (.commandSent s)
  case makeDone r => exact .unlessHeld (.received State.Keeps.makeDone s false .makeJob r)
  case makeFail r => exact .unlessHeld (.received State.Keeps.makeFailed s true .makeJob r)
  case makeTimeout xp => exact .unlessHeld (.matched (fun s x => .makeTimedOut s x xp) s .makeJob xp)
  case breakDone r => exact .unlessHeld (.received State.Keeps.breakDone s false .breakJob r)
  case breakFail r => exact .unlessHeld (.received State.Keeps.breakFaulted s true .breakJob r)
  case breakTimeout xp => exact .unlessHeld (.matched (fun s x => .breakFaulted s x xp) s .breakJob xp)
  -- the processor's cycles and the orders
  all_goals first | exact .presentCycle s _ _ | exact .giveOrder s _

/-- Every step keeps the invariants. -/
theorem step_keeps {s t : State} (h : step s = .next t) : s.Keeps t := by
  unfold step at h
  split at h
  next c rest _ => exact (State.Keeps.of_tracked (t := { s with pending := rest })).trans (exec_keeps c h)
  next =>
    obtain rfl := Host.Outcome.next.inj h
    exact .clockPeriod s

/-- Settles O4. -/
theorem stepKeepsStoreCanonical : Obligations.StepKeepsStoreCanonical := by
  unfold Obligations.StepKeepsStoreCanonical
  exact fun _ _ hs h => (step_keeps h).store hs

/-- Settles O5. -/
theorem stepKeepsQueueBounds : Obligations.StepKeepsQueueBounds := by
  unfold Obligations.StepKeepsQueueBounds
  exact fun _ _ hs h => (step_keeps h).queues hs

/-- Settles O6. -/
theorem stepKeepsCounts : Obligations.StepKeepsCounts := by
  unfold Obligations.StepKeepsCounts
  exact ⟨fun _ _ hs h => (step_keeps h).counts hs, fun _ _ hs h => (step_keeps h).scan hs,
    fun _ _ hs h => (step_keeps h).ring hs, fun _ _ hc hs h => (step_keeps h).tickets hc hs⟩

/-- Settles O7. -/
theorem stepKeepsValidMap : Obligations.StepKeepsValidMap := by
  unfold Obligations.StepKeepsValidMap
  exact fun _ _ hs h => (step_keeps h).mapped hs

/-- Settles O8. -/
theorem resetIsSafe : Obligations.ResetIsSafe := State.reset_safe

/-- Settles O1. -/
theorem stepRunsFrontCommand : Obligations.StepRunsFrontCommand := by
  unfold Obligations.StepRunsFrontCommand
  exact fun _ _ _ => rfl

/-- Settles O2: every arm of `exec` answers a next state. -/
theorem everyStepAnswersNext : Obligations.EveryStepAnswersNext := by
  unfold Obligations.EveryStepAnswersNext
  intro s
  unfold step
  split
  next c rest _ => cases c <;> exact ⟨_, rfl⟩
  next => exact ⟨_, rfl⟩

end Sys2Proof.Machine
end

section
/-!
PROOF. The regions of a valid map (O13), and the processor's reads: passed (O14), served (O16), STATUS (O17) and REPORT A (O18).
-/

namespace Sys2Proof.Machine

set_option Elab.async false

/-! ## The regions of a valid map (R155, R158) -/

/-- The words of a region whose base is a multiple of its size do not run past the end of the address space. -/
theorem regionAddr_toNat {base : Word} {off n : Nat} (haligned : base.toNat % n = 0) (hn : n ∣ 65536) (hoff : off < n) :
    (regionAddr base off).toNat = base.toNat + off := by
  have hbase : base.toNat < 65536 := base.isLt
  have hend : base.toNat + n ≤ 65536 := by
    obtain ⟨k, hk⟩ := Nat.dvd_of_mod_eq_zero haligned
    obtain ⟨m, hm⟩ := hn
    have hkm : k + 1 ≤ m := by
      by_contra hge
      have := Nat.mul_le_mul_left n (show m ≤ k by omega)
      omega
    have := Nat.mul_le_mul_left n hkm
    rw [Nat.mul_add, Nat.mul_one] at this
    omega
  rw [regionAddr, BitVec.toNat_add, BitVec.toNat_ofNat]
  omega

/-- The ring's region is a power of two of words. -/
theorem ticketSize_dvd {code : Nat} (h : code ≤ 5) : 128 * 2 ^ code ∣ 65536 := by
  rw [show 128 * 2 ^ code = 2 ^ (7 + code) by rw [Nat.pow_add]]
  exact Nat.pow_dvd_pow 2 (n := 16) (by omega)

/-- The ten pairs of regions of a valid map share no address (R155). -/
theorem configValid_apart {m : RegionMap} {threshold : Nat} (h : configValid m threshold = true) :
    (m.order.toNat + 128 ≤ m.cells.toNat ∨ m.cells.toNat + 16 ≤ m.order.toNat) ∧
    (m.order.toNat + 128 ≤ m.calls.toNat ∨ m.calls.toNat + 256 ≤ m.order.toNat) ∧
    (m.order.toNat + 128 ≤ m.meter.toNat ∨ m.meter.toNat + 1024 ≤ m.order.toNat) ∧
    (m.order.toNat + 128 ≤ m.ticket.toNat ∨ m.ticket.toNat + 128 * 2 ^ m.code ≤ m.order.toNat) ∧
    (m.cells.toNat + 16 ≤ m.calls.toNat ∨ m.calls.toNat + 256 ≤ m.cells.toNat) ∧
    (m.cells.toNat + 16 ≤ m.meter.toNat ∨ m.meter.toNat + 1024 ≤ m.cells.toNat) ∧
    (m.cells.toNat + 16 ≤ m.ticket.toNat ∨ m.ticket.toNat + 128 * 2 ^ m.code ≤ m.cells.toNat) ∧
    (m.calls.toNat + 256 ≤ m.meter.toNat ∨ m.meter.toNat + 1024 ≤ m.calls.toNat) ∧
    (m.calls.toNat + 256 ≤ m.ticket.toNat ∨ m.ticket.toNat + 128 * 2 ^ m.code ≤ m.calls.toNat) ∧
    (m.meter.toNat + 1024 ≤ m.ticket.toNat ∨ m.ticket.toNat + 128 * 2 ^ m.code ≤ m.meter.toNat) := by
  obtain ⟨-, -, -, -, -, -, -, -, hapart⟩ := (configValid_iff m threshold).mp h
  simpa [allApart, RegionMap.runs, runsApart, RegionMap.ticketSize_eq, orderSize, cellsSize, callsSize, meterSize,
    and_assoc] using hapart

theorem inRun_iff (a base : Word) (n : Nat) :
    inRun a base n = true ↔ base.toNat ≤ a.toNat ∧ a.toNat < base.toNat + n := by
  simp [inRun]

/-- The region of an address, by the five runs in their order (R155). -/
theorem RegionMap.region_eq (m : RegionMap) (a : Word) :
    m.region a =
      if m.order.toNat ≤ a.toNat ∧ a.toNat < m.order.toNat + 128 then .order (a.toNat - m.order.toNat)
      else if m.cells.toNat ≤ a.toNat ∧ a.toNat < m.cells.toNat + 16 then .cells (a.toNat - m.cells.toNat)
      else if m.calls.toNat ≤ a.toNat ∧ a.toNat < m.calls.toNat + 256 then .calls (a.toNat - m.calls.toNat)
      else if m.meter.toNat ≤ a.toNat ∧ a.toNat < m.meter.toNat + 1024 then .meter (a.toNat - m.meter.toNat)
      else if m.ticket.toNat ≤ a.toNat ∧ a.toNat < m.ticket.toNat + 128 * 2 ^ m.code then .ticket (a.toNat - m.ticket.toNat)
      else .outside := by
  simp only [RegionMap.region, inRun_iff, RegionMap.ticketSize_eq, orderSize, cellsSize, callsSize, meterSize]

section ValidMap

variable {m : RegionMap} {threshold off : Nat}

theorem region_orderAddr (h : configValid m threshold = true) (hoff : off < 128) :
    m.region (regionAddr m.order off) = .order off := by
  obtain ⟨-, -, -, haligned, -⟩ := (configValid_iff m threshold).mp h
  have haddr := regionAddr_toNat haligned (by decide) hoff
  rw [RegionMap.region_eq, haddr, if_pos (by omega), Nat.add_sub_cancel_left]

theorem region_callsAddr (h : configValid m threshold = true) (hoff : off < 256) :
    m.region (regionAddr m.calls off) = .calls off := by
  obtain ⟨-, -, -, -, -, haligned, -⟩ := (configValid_iff m threshold).mp h
  obtain ⟨-, horder, -, -, hcells, -⟩ := configValid_apart h
  have haddr := regionAddr_toNat haligned (by decide) hoff
  rw [RegionMap.region_eq, haddr, if_neg (by omega), if_neg (by omega), if_pos (by omega), Nat.add_sub_cancel_left]

theorem region_meterAddr (h : configValid m threshold = true) (hoff : off < 1024) :
    m.region (regionAddr m.meter off) = .meter off := by
  obtain ⟨-, -, -, -, -, -, haligned, -⟩ := (configValid_iff m threshold).mp h
  obtain ⟨-, -, horder, -, -, hcells, -, hcalls, -⟩ := configValid_apart h
  have haddr := regionAddr_toNat haligned (by decide) hoff
  rw [RegionMap.region_eq, haddr, if_neg (by omega), if_neg (by omega), if_neg (by omega), if_pos (by omega),
    Nat.add_sub_cancel_left]

theorem region_ticketAddr (h : configValid m threshold = true) (hoff : off < 128 * 2 ^ m.code) :
    m.region (regionAddr m.ticket off) = .ticket off := by
  obtain ⟨hcode, -, -, -, -, -, -, haligned, -⟩ := (configValid_iff m threshold).mp h
  obtain ⟨-, -, -, horder, -, -, hcells, -, hcalls, hmeter⟩ := configValid_apart h
  have haddr := regionAddr_toNat haligned (ticketSize_dvd hcode) hoff
  rw [RegionMap.region_eq, haddr, if_neg (by omega), if_neg (by omega), if_neg (by omega), if_neg (by omega),
    if_pos (by omega), Nat.add_sub_cancel_left]

end ValidMap

/-- Settles O13, region by region. -/
theorem validMapResolvesRegions : Obligations.ValidMapResolvesRegions := by
  unfold Obligations.ValidMapResolvesRegions
  exact fun m threshold h => ⟨fun off => region_orderAddr h, fun off => region_cellAddr h, fun off => region_callsAddr h,
    fun off => region_meterAddr h, fun off => region_ticketAddr h⟩

/-! ## A cycle granted at a free port -/

/-- The state in which a cycle presented at a free port is performed: its requests and count are the arbiter's. -/
def State.granted (s : State) (c : Cycle) (b : BurstState) (m : Bool) (g : Nat) : State :=
  { s with ends := [], cycles := [c], burst := b, meterRequest := m, grantCount := g }

/-- A cycle that memory completes in the event of its grant, or that is not passed, is performed in its own event (R162). -/
theorem State.presentCycle_performed (s : State) (c : Cycle) (later : Bool) (h : s.PortFree) (hp : s.phase ≠ .held)
    (hw : later = false ∨ s.isPassed c = false) :
    ∃ b m g, s.presentCycle c later = arbitrate (!later) 6 ((s.granted c b m g).performCycle c) := by
  obtain ⟨b, m, e⟩ := s.presentCycle_granted c later h hp
  refine ⟨b, m, if ({ s with burst := b, meterRequest := m } : State).partWaits then s.grantCount + 1 else 0, ?_⟩
  rw [e]
  congr 1
  refine if_neg ?_
  rcases hw with rfl | hpassed
  · simp
  · change ¬ (s.isPassed c && !!later) = true
    simp [hpassed]

/-- A cycle that ends in its own event leaves what its treatment leaves, but for the arbiter's fields. -/
theorem State.presentCycle_arbiterOnly {s u : State} {c : Cycle} {later : Bool} (h : s.PortFree) (hp : s.phase ≠ .held)
    (hw : later = false ∨ s.isPassed c = false)
    (hu : ∀ b m g, (s.granted c b m g).performCycle c = { u with burst := b, meterRequest := m, grantCount := g })
    (hc : u.cycles = []) : State.ArbiterOnly u (s.presentCycle c later) := by
  obtain ⟨b, m, g, e⟩ := s.presentCycle_performed c later h hp hw
  rw [e, hu]
  exact State.ArbiterOnly.trans (t := { u with burst := b, meterRequest := m, grantCount := g }) rfl
    (arbitrate_arbiterOnly _ 6 _ hc)

/-- At a free port the state of the grant differs from the final state in what the end of the cycle gives (R162). -/
theorem State.granted_endCycle {s : State} (h : s.PortFree) (c : Cycle) (b : BurstState) (m : Bool) (g : Nat) (e : CycleEnd)
    (pair : Option Line) :
    (s.granted c b m g).endCycle e pair =
      { s with ends := [e], readPair := pair, burst := b, meterRequest := m, grantCount := g } := by
  obtain ⟨hc, -, hst, -⟩ := h
  simp [State.granted, State.endCycle, hc, hst]

/-! ## Reads passed to memory (R106, R162, R166) -/

/-- A read passed to memory, completed in its own event. -/
theorem exec_passedRead {s : State} {a : Word} {mperr : Bool} (pair : Option Line) (hfree : s.PortFree) (hp : s.phase ≠ .held)
    (hperform : ∀ u : State, u.phase = s.phase → u.map = s.map →
      u.performCycle (.read a mperr) = u.passRead a mperr pair) :
    State.ArbiterOnly
      { s with ends := [if mperr then .pberr else .prdyWord (s.readMem a)], readPair := pair,
               memoryError := s.memoryError || mperr } (s.presentCycle (.read a mperr) false) := by
  have ⟨hc, _, hst, _⟩ := hfree
  refine State.presentCycle_arbiterOnly hfree hp (.inl rfl) (fun b m g => ?_) hc
  rw [hperform (s.granted (.read a mperr) b m g) rfl rfl]
  cases mperr
  · rw [State.passRead, if_neg Bool.false_ne_true, State.granted_endCycle hfree]
    simp only [Bool.or_false]
    rfl
  · rw [State.passRead, if_pos rfl]
    simp [State.setMemoryError, State.granted, State.endCycle, hc, hst]

/-- The reads of O14's first part are passed, and close the read pair (R157, R159). -/
theorem State.performCycle_read_passed {s : State} {a : Word} (mperr : Bool)
    (h : (∃ taken, s.phase = .loading taken) ∨ (s.phase = .ready ∧
      (s.map.region a = .outside ∨ (∃ off, s.map.region a = .order off) ∨ (∃ off, s.map.region a = .ticket off)
        ∨ ∃ off, s.map.region a = .meter off ∧ off % 2 = 1))) :
    s.isPassed (.read a mperr) = true ∧ s.opensPair (.read a mperr) = none ∧ s.phase ≠ .held ∧
      ∀ u : State, u.phase = s.phase → u.map = s.map → u.performCycle (.read a mperr) = u.passRead a mperr none := by
  rcases h with ⟨taken, hload⟩ | ⟨hready, hregion⟩
  · refine ⟨by simp [State.isPassed, hload], by simp [State.opensPair, State.isReady, hload], by simp [hload], fun u hu _ => ?_⟩
    simp [State.performCycle, hu, hload]
  · refine ⟨?_, ?_, by simp [hready], fun u hu hm => ?_⟩
    · rcases hregion with hr | ⟨off, hr⟩ | ⟨off, hr⟩ | ⟨off, hr, -⟩ <;> simp [State.isPassed, hready, hr]
    · rcases hregion with hr | ⟨off, hr⟩ | ⟨off, hr⟩ | ⟨off, hr, hodd⟩ <;>
        simp [State.opensPair, State.isReady, meterPair, *]
    · rcases hregion with hr | ⟨off, hr⟩ | ⟨off, hr⟩ | ⟨off, hr, hodd⟩ <;>
        simp [State.performCycle, State.readyRead, meterPair, *]

/-- The word 0 of a line's meter record lies in METER at twice the line. -/
theorem region_meterWord0 {m : RegionMap} {threshold : Nat} (h : configValid m threshold = true) (l : Line) :
    m.region (m.meterAddr l 0) = .meter (2 * l.val) := region_meterAddr h (by omega)

theorem meterPair_line (l : Line) : meterPair (2 * l.val) = some l := by
  simp [meterPair, Fin.ofNat, Nat.mod_eq_of_lt l.isLt]

/-- Settles O14: the reads are passed, and answered at the grant or left to the end of their access. -/
theorem passedReadAnswers : Obligations.PassedReadAnswers := by
  unfold Obligations.PassedReadAnswers
  constructor
  · intro s a mperr hfree hwhere
    obtain ⟨hpassed, hopens, hp, hperform⟩ := State.performCycle_read_passed mperr hwhere
    have hpair : s.pairGranted (.read a mperr) = s.readPair := by simp [State.pairGranted, hopens]
    have hlater := State.presentCycle_later s (.read a mperr) hfree hpassed
    rw [hpair] at hlater
    exact ⟨⟨_, rfl, exec_passedRead none hfree hp hperform⟩, ⟨_, rfl, hlater⟩⟩
  · intro s l mperr hfree hready hmap
    have hregion := region_meterWord0 (hmap hready) l
    have hpassed : s.isPassed (.read (s.map.meterAddr l 0) mperr) = true := by simp [State.isPassed, hready, hregion]
    have hpair : s.pairGranted (.read (s.map.meterAddr l 0) mperr) = some l := by
      simp [State.pairGranted, State.opensPair, State.isReady, hready, hregion, meterPair_line]
    have hlater := State.presentCycle_later s (.read (s.map.meterAddr l 0) mperr) hfree hpassed
    rw [hpair] at hlater
    refine ⟨⟨_, rfl, exec_passedRead (some l) hfree (by simp [hready]) fun u hu hm => ?_⟩, ⟨_, rfl, hlater⟩⟩
    change u.performCycle (.read (s.map.meterAddr l 0) mperr) = u.passRead (s.map.meterAddr l 0) mperr (some l)
    simp only [State.performCycle, hu, hm, hready, State.readyRead, hregion, meterPair_line]

/-! ## Reads served by the part (R160) -/

/-- A read of a cell is served, whatever the memory would answer (R160, R162). -/
theorem exec_cellRead {s u : State} {a : Word} {off : Nat} (mperr later : Bool) (hfree : s.PortFree) (hready : s.phase = .ready)
    (hregion : s.map.region a = .cells off)
    (hu : ∀ c b m g, (s.granted c b m g).afterCellRead off =
      { u with ends := [], cycles := [c], burst := b, meterRequest := m, grantCount := g })
    (hw : ∀ c b m g, (s.granted c b m g).cellWord off = s.cellWord off) (hc : u.cycles = []) (hst : u.stretch = .none) :
    State.ArbiterOnly { u with ends := [.prdyWord (s.cellWord off)], readPair := none }
      (s.presentCycle (.read a mperr) later) := by
  refine State.presentCycle_arbiterOnly hfree (by simp [hready]) (.inr (by simp [State.isPassed, hready, hregion]))
    (fun b m g => ?_) hc
  have hperform : (s.granted (.read a mperr) b m g).performCycle (.read a mperr) =
      ((s.granted (.read a mperr) b m g).afterCellRead off).endCycle
        (.prdyWord ((s.granted (.read a mperr) b m g).cellWord off)) none := by
    simp [State.granted, State.performCycle, hready, State.readyRead, hregion]
  rw [hperform, hw, hu]
  simp [State.endCycle, hst, hc]

/-- A read in CALLS is served, whatever the memory would answer (R160, R162). -/
theorem exec_callsRead {s : State} {a : Word} {off : Nat} (mperr later : Bool) (hfree : s.PortFree) (hready : s.phase = .ready)
    (hregion : s.map.region a = .calls off) :
    State.ArbiterOnly { s with ends := [.prdyWord (s.callsWord off)], readPair := none } (s.presentCycle (.read a mperr) later) := by
  refine State.presentCycle_arbiterOnly hfree (by simp [hready]) (.inr (by simp [State.isPassed, hready, hregion]))
    (fun b m g => ?_) hfree.1
  rw [← State.granted_endCycle hfree (.read a mperr)]
  simp only [State.granted, State.performCycle, hready, State.readyRead, hregion]
  rfl

end Sys2Proof.Machine
end

section
/-!
PROOF. The reads that the part serves from its own state: STATUS (O17), REPORT A (O18), and the other cells and the CALLS view (O16).
-/

namespace Sys2Proof.Machine

set_option Elab.async false

/-! ## Fields of a word given by its number -/

theorem flagBit_eq (b : Bool) (i : Nat) : flagBit b i = b.toNat * 2 ^ i := by
  cases b <;> simp [flagBit]

/-- A bit of a word, from the number that the word stores. -/
theorem getLsbD_ofNat {n i : Nat} {b : Bool} (hi : i < 16) (h : n / 2 ^ i % 2 = b.toNat) : (BitVec.ofNat 16 n).getLsbD i = b := by
  rw [BitVec.getLsbD_ofNat, Nat.testBit_eq_decide_div_mod_eq, h]
  cases b <;> simp [hi]

/-- A field of a word, from the number that the word stores. -/
theorem extractLsb'_ofNat (n lo len : Nat) : ((BitVec.ofNat 16 n).extractLsb' lo len).toNat = n % 65536 / 2 ^ lo % 2 ^ len := by
  rw [BitVec.extractLsb'_toNat, BitVec.toNat_ofNat, Nat.shiftRight_eq_div_pow]

theorem toNat_ofNat_of_lt {n : Nat} (h : n < 65536) : (BitVec.ofNat 16 n : Word).toNat = n := by
  rw [BitVec.toNat_ofNat]
  exact Nat.mod_eq_of_lt h

/-! ## STATUS (R171) -/

/-- Settles O17: each bit of the word is the bit of the sum that STATUS stores, and the read clears the stickies after it. -/
theorem statusReadShowsAndClears : Obligations.StatusReadShowsAndClears := by
  unfold Obligations.StatusReadShowsAndClears
  intro s hfree hready hmap
  have hregion : s.map.region (s.map.cellAddr 0) = .cells 0 := region_cellAddr (hmap hready) (by decide)
  refine ⟨_, s.statusWord, rfl, ?_, ?_⟩
  · exact exec_cellRead (u := s.clearStickies) false false hfree hready hregion (fun _ _ _ _ => rfl) (fun _ _ _ _ => rfl)
      hfree.1 hfree.2.2.1
  · have hattn : s.attnActive = decide (s.reports ≠ []) := by cases h : s.reports <;> simp [State.attnActive, h]
    have hisReady : s.isReady.toNat = 1 := by simp [State.isReady, hready]
    simp only [State.statusWord, flagBit_eq, hisReady, ← hattn]
    have hconfig := s.configFault.toNat_le
    have horders := s.ordersAlmostFull.toNat_le
    have hreports := s.attnActive.toNat_le
    have hlost := s.reportsLost.toNat_le
    have hring := s.ringFull.toNat_le
    have hbilling := s.billingFull.toNat_le
    have hunset := s.timeUnset.toNat_le
    have hmemory := s.memoryError.toNat_le
    have hguarded := s.guardedWrite.toNat_le
    have hband := s.band.isLt
    refine ⟨getLsbD_ofNat (by decide) ?_, getLsbD_ofNat (by decide) ?_, getLsbD_ofNat (b := s.ordersAlmostFull) (by decide) ?_,
      getLsbD_ofNat (by decide) ?_, getLsbD_ofNat (by decide) ?_, getLsbD_ofNat (by decide) ?_,
      getLsbD_ofNat (b := s.billingFull) (by decide) ?_, getLsbD_ofNat (by decide) ?_, ?_, getLsbD_ofNat (by decide) ?_,
      getLsbD_ofNat (by decide) ?_, BitVec.eq_of_toNat_eq ?_⟩
    case refine_9 => rw [extractLsb'_ofNat]; omega
    case refine_12 => rw [extractLsb'_ofNat]; change _ = 0; omega
    case refine_1 => change _ = 1; omega
    all_goals omega

/-! ## REPORT A (R169) -/

/-- The kind code of a report is 1 to 12, its subject below 512 (section 10.1, section 11.5). -/
theorem Report.code_subject_lt (r : Report) : r.code < 16 ∧ r.subject < 512 := by
  cases r with
  | crosspointFault xp c =>
    cases xp <;> (simp only [Report.code, Report.subject, crosspointSubject]; omega)
  | _ => simp only [Report.code, Report.subject]; omega

/-- The fields of word A of a report. -/
theorem Report.wordA_fields (r : Report) :
    (r.wordA.extractLsb' 12 4).toNat = r.code ∧ (r.wordA.extractLsb' 0 9).toNat = r.subject ∧ r.wordA.extractLsb' 9 3 = 0 := by
  obtain ⟨hcode, hsubject⟩ := r.code_subject_lt
  refine ⟨?_, ?_, BitVec.eq_of_toNat_eq ?_⟩ <;> rw [Report.wordA, extractLsb'_ofNat]
  · omega
  · omega
  · simp
    omega

/-- A REPORT A read moves the head of the queue, if any, to the latch (R169). -/
theorem State.popReport_eq (s : State) : s.popReport = { s with reports := s.reports.tail, latch := s.reports.head? } := by
  unfold State.popReport
  split
  next r rest h => simp [h]
  next h => simp [h]

theorem State.attnActive_iff (s : State) : s.attnActive = true ↔ s.reports ≠ [] := by
  cases h : s.reports <;> simp [State.attnActive, h]

/-- Settles O18: the head of the queue goes to the latch and its word A is returned. -/
theorem reportAReadPops : Obligations.ReportAReadPops := by
  unfold Obligations.ReportAReadPops
  intro s hfree hready hmap
  have hregion : s.map.region (s.map.cellAddr 1) = .cells 1 := region_cellAddr (hmap hready) (by decide)
  have harb := exec_cellRead (u := { s with reports := s.reports.tail, latch := s.reports.head? }) false false hfree hready hregion
    (fun _ _ _ _ => State.popReport_eq _) (fun _ _ _ _ => rfl) hfree.1 hfree.2.2.1
  refine ⟨_, s.reportAWord, rfl, harb, s.attnActive_iff, ?_, fun h => by simp [State.reportAWord, h], fun r rest h => ?_⟩
  · have hreports : (s.presentCycle (.read (s.map.cellAddr 1) false) false).reports = s.reports.tail := by rw [harb]
    rw [State.attnActive_iff, hreports]
    rcases s.reports with _ | ⟨a, _ | ⟨b, l⟩⟩ <;> simp
  · have hword : s.reportAWord = r.wordA := by simp [State.reportAWord, h]
    rw [hword]
    obtain ⟨hcode, hsubject, hzero⟩ := r.wordA_fields
    refine ⟨hcode, hsubject, hzero, ?_⟩
    cases r with
    | crosspointFault xp c => cases xp <;> rfl
    | _ => rfl

/-! ## The other cells (R87, R138, R169, section 11.6) -/

/-- A read of a cell that has no effect on the part is served from its state. -/
theorem exec_cellRead_plain {s : State} {a : Word} {off : Nat} (mperr later : Bool) (hfree : s.PortFree) (hready : s.phase = .ready)
    (hregion : s.map.region a = .cells off) (hoff : 2 ≤ off) :
    State.ArbiterOnly { s with ends := [.prdyWord (s.cellWord off)], readPair := none } (s.presentCycle (.read a mperr) later) := by
  obtain ⟨n, rfl⟩ : ∃ n, off = n + 2 := ⟨off - 2, by omega⟩
  have hword : ∀ (c : Cycle) (b : BurstState) (m : Bool) (g : Nat), (s.granted c b m g).cellWord (n + 2) = s.cellWord (n + 2) := by
    intro c b m g
    rcases n with _ | _ | _ | _ | _ | _ | n <;> rfl
  exact exec_cellRead (u := s) mperr later hfree hready hregion (fun _ _ _ _ => rfl) hword hfree.1 hfree.2.2.1

/-! ## The CALLS view (R172, section 11.7) -/

theorem State.callsWord_eq (s : State) (x : Circuit) {w : Nat} (hw : w < 4) : s.callsWord (4 * x.val + w) = s.callView x w := by
  have hx : (4 * x.val + w) / 4 = x.val := by omega
  have hm : (4 * x.val + w) % 4 = w := by omega
  simp only [State.callsWord, hx, hm, x.isLt, dif_pos]

/-- The code of a circuit's kind (section 11.2). -/
theorem circuitKind_code (x : Circuit) : (circuitKind x).code = if x.val < 24 then 0 else if x.val < 48 then 1 else 2 := by
  unfold circuitKind
  (repeat' split) <;> rfl

theorem CallState.code_lt (st : CallState) : st.code < 9 := by
  cases st <;> decide

/-- The fields of word 0 of a call view. -/
theorem State.callView_fields (s : State) (x : Circuit) :
    let w := s.callView x 0
    let r := s.record x
    w.toNat % 16 = r.state.code ∧ w.toNat / 16 % 4 = (circuitKind x).code ∧ w.getLsbD 6 = r.coin ∧ w.getLsbD 7 = r.ticket ∧
      w.getLsbD 8 = r.calledClear.isSome ∧ w.getLsbD 9 = r.grace.isSome ∧ (w.getLsbD 10 = !s.circuitInService[x]) ∧
      w.getLsbD 11 = false ∧ w.toNat / 4096 = r.bandAtAnswer.val := by
  intro w r
  have hstate := r.state.code_lt
  have hkind : (circuitKind x).code < 3 := by rw [circuitKind_code]; split_ifs <;> decide
  have hcoin := r.coin.toNat_le
  have hticket := r.ticket.toNat_le
  have hcalledClear := r.calledClear.isSome.toNat_le
  have hgrace := r.grace.isSome.toNat_le
  have hservice := (!s.circuitInService[x]).toNat_le
  have hband := r.bandAtAnswer.isLt
  let n := r.state.code + 16 * (circuitKind x).code + r.coin.toNat * 2 ^ 6 + r.ticket.toNat * 2 ^ 7
    + r.calledClear.isSome.toNat * 2 ^ 8 + r.grace.isSome.toNat * 2 ^ 9 + (!s.circuitInService[x]).toNat * 2 ^ 10
    + 4096 * r.bandAtAnswer.val
  have hw : w = BitVec.ofNat 16 n := by simp only [w, State.callView, flagBit_eq, n, r]
  have hn : w.toNat = n := by
    rw [hw]
    exact toNat_ofNat_of_lt (by omega)
  rw [hn, hw]
  exact ⟨by omega, by omega, getLsbD_ofNat (by decide) (by omega), getLsbD_ofNat (by decide) (by omega),
    getLsbD_ofNat (by decide) (by omega), getLsbD_ofNat (by decide) (by omega), getLsbD_ofNat (by decide) (by omega),
    getLsbD_ofNat (by decide) (show _ = 0 by omega), by omega⟩

/-- The coordinates and cause of a CROSSPOINT FAULT detail lie in their fields (section 11.5). -/
theorem crosspointDetail_lt (xp : Crosspoint) : crosspointDetail xp < 4096 := by
  cases xp <;> simp only [crosspointDetail] <;> omega

/-- Settles O16: the word served is the state's own, whose fields lie within their widths. -/
theorem servedReadsShowState : Obligations.ServedReadsShowState := by
  unfold Obligations.ServedReadsShowState
  intro s a mperr later hfree hready hcounts hqueues hwrite hread
  constructor
  · intro off hregion hoff
    refine ⟨_, s.cellWord off, rfl, exec_cellRead_plain mperr later hfree hready hregion hoff, ?_, ?_, ?_, ?_, ?_, ?_, ?_⟩
    · rintro rfl
      simp only [State.cellWord, State.reportBWord]
      rcases s.latch with _ | r
      · rfl
      · cases r with
        | answer x b => exact toNat_ofNat_of_lt (by omega)
        | clear x c => cases c <;> rfl
        | seize x => rfl
        | abandon x => rfl
        | calledClear x => rfl
        | reAnswer x => rfl
        | payTone x n => exact fun h => toNat_ofNat_of_lt (by omega)
        | crosspointFault xp c =>
          have hw : (Report.crosspointFault xp c).wordB.toNat = crosspointDetail xp + 4096 * c.code :=
            toNat_ofNat_of_lt (by have := crosspointDetail_lt xp; cases c <;> simp only [FaultCause.code] <;> omega)
          have hlt := crosspointDetail_lt xp
          simp only [hw]
          refine ⟨?_, ?_⟩
          · cases xp <;> simp only [crosspointDetail] <;> omega
          · cases c <;> simp only [FaultCause.code] <;> omega
        | linkOut g k => exact toNat_ofNat_of_lt (by omega)
        | meterFault l f => exact ⟨fun h => h ▸ rfl, fun h => h ▸ rfl, fun h => h ▸ rfl⟩
        | ticketIndexError v => rfl
        | bandChange b => exact toNat_ofNat_of_lt (by omega)
    · rintro rfl
      have hring := s.ringFull.toNat_le
      refine (toNat_ofNat_of_lt (by rw [flagBit_eq]; omega)).trans ?_
      cases s.ringFull <;> rfl
    · rintro rfl
      exact toNat_ofNat_of_lt (by omega)
    · rintro rfl
      exact toNat_ofNat_of_lt (by have := hcounts.minute; omega)
    · rintro rfl
      exact toNat_ofNat_of_lt (by have := hcounts.second; omega)
    · rintro rfl
      exact toNat_ofNat_of_lt (by have := hqueues.held; omega)
    · intro h
      obtain ⟨n, rfl⟩ : ∃ n, off = n + 8 := ⟨off - 8, by omega⟩
      rfl
  · intro off hregion
    refine ⟨_, s.callsWord off, rfl, exec_callsRead mperr later hfree hready hregion, fun h => ?_, fun x => ?_⟩
    · exact dif_neg (by omega)
    · refine ⟨?_, ?_, ?_, ?_⟩
      · rintro rfl
        obtain ⟨hstate, hkind, hcoin, hticket, hcalledClear, hgrace, hservice, hzero, hband⟩ := s.callView_fields x
        rw [show 4 * x.val = 4 * x.val + 0 from rfl, s.callsWord_eq x (by decide)]
        refine ⟨hstate, ?_, hkind.trans (circuitKind_code x), hcoin, hticket, hcalledClear, hgrace, hservice, hzero, ?_, ?_⟩
        · cases (s.record x).state <;> rfl
        · exact fun h => hband.trans (by rw [CallRecord.bandAtAnswer, h]; rfl)
        · exact fun st h => hband.trans (by rw [CallRecord.bandAtAnswer, h])
      · rintro rfl
        rw [s.callsWord_eq x (by decide)]
        simp only [State.callView]
        rcases (s.record x).calling with _ | l
        · rfl
        · exact toNat_ofNat_of_lt (by omega)
      · rintro rfl
        rw [s.callsWord_eq x (by decide)]
        simp only [State.callView]
        rcases (s.record x).called with _ | l | j
        · rfl
        · exact toNat_ofNat_of_lt (by have := l.isLt; simp only [calledNumber]; omega)
        · exact toNat_ofNat_of_lt (by have := j.isLt; simp only [calledNumber]; omega)
      · rintro rfl
        rw [s.callsWord_eq x (by decide)]
        exact toNat_ofNat_of_lt (by have := (hcounts.records x).paid; omega)

end Sys2Proof.Machine
end

section
/-!
PROOF. Cycles while MRST is active and its release (O10), the processor's writes (O15, O20, O21), and the ends of an order
write (O22).
-/

namespace Sys2Proof.Machine

set_option Elab.async false

/-! ## Events and the arbiter -/

/-- An event of the part with MRST not active (assumption log 21). -/
theorem running_next {s : State} (f : State → State) (h : s.phase ≠ .held) : running f s = .next (f s) := by
  simp [running, State.isHeld, h]

/-- The arbiter leaves the processor's cycles and their stretch, so also whether one waits. -/
theorem State.ArbiterOnly.processorWaits {s t : State} (h : State.ArbiterOnly s t) : t.processorWaits = s.processorWaits := by
  rw [h]
  rfl

/-- With no processor cycle waiting for a grant the arbiter changes its own fields alone. -/
theorem arbitrate_noGrant (whole : Bool) : ∀ (n : Nat) (s : State), s.processorWaits = false → State.ArbiterOnly s (arbitrate whole n s)
  | 0, s, _ => State.ArbiterOnly.refl s
  | n + 1, s, h => by
    have hraise := s.raiseRequests_arbiterOnly
    have hwaits : s.raiseRequests.processorWaits = false := by rw [hraise.processorWaits, h]
    have hwins : ¬ s.raiseRequests.processorWins = true := by simp [State.processorWins, hwaits]
    rw [arbitrate_succ, if_neg hwins]
    split
    · exact hraise
    · split
      · have hgrant := s.raiseRequests.grantPart_arbiterOnly
        exact (hraise.trans hgrant).trans (arbitrate_noGrant whole n _ (by rw [hgrant.processorWaits, hwaits]))
      · exact hraise

/-- While the port has an owner the arbiter grants nothing (R163). -/
theorem arbitrate_owned (whole : Bool) (n : Nat) {s : State} (h : s.owner ≠ .none) : arbitrate whole (n + 1) s = s.raiseRequests := by
  rw [arbitrate_succ, if_pos (by rw [State.raiseRequests_eq]; exact h)]

/-- A state that the arbiter may have left the first in, and so all that it may leave after it. -/
theorem State.ArbiterOnly.rebase {s t u : State} (h : State.ArbiterOnly t u) (hst : State.ArbiterOnly s t := by exact rfl) :
    State.ArbiterOnly s u := hst.trans h

theorem State.ArbiterOnly.mem {s t : State} (h : State.ArbiterOnly s t) : t.mem = s.mem := by rw [h]

theorem State.ArbiterOnly.slots {s t : State} (h : State.ArbiterOnly s t) : t.slots = s.slots := by rw [h]

/-! ## MRST (R156, R162) -/

/-- Settles O10: the cycle ends in its own event, the release samples LOADCFG, and an address lies in no region exactly when it misses
the five runs of the preset layout. -/
theorem heldUntilMrstRelease : Obligations.HeldUntilMrstRelease := by
  unfold Obligations.HeldUntilMrstRelease
  refine ⟨fun s write a v h => congrArg _ (s.presentCycle_held _ false h), fun s h => ?_, fun a => ?_⟩
  · have hheld : s.isHeld = true := by simp [State.isHeld, h]
    exact ⟨congrArg _ (if_pos hheld), congrArg _ (if_pos hheld)⟩
  · rw [RegionMap.region_eq]
    simp only [RegionMap.preset, show (0xF000 : Word).toNat = 0xF000 from rfl, show (0xF080 : Word).toNat = 0xF080 from rfl,
      show (0xF100 : Word).toNat = 0xF100 from rfl, show (0xF400 : Word).toNat = 0xF400 from rfl,
      show (0xE000 : Word).toNat = 0xE000 from rfl]
    have hlt := a.isLt
    split_ifs <;> simp only [false_iff, true_iff] <;> omega

/-! ## Writes passed to memory (R159, R162) -/

/-- A write passed to memory, completed in its own event. -/
theorem exec_passedWrite {s : State} {a v : Word} (hfree : s.PortFree) (hp : s.phase ≠ .held)
    (hperform : ∀ u : State, u.phase = s.phase → u.map = s.map → u.performCycle (.write a v) = u.passWrite a v) :
    State.ArbiterOnly { s.writeMem a v with ends := [.prdy], readPair := none } (s.presentCycle (.write a v) false) := by
  refine State.presentCycle_arbiterOnly hfree hp (.inl rfl) (fun b m g => ?_) hfree.1
  rw [hperform (s.granted (.write a v) b m g) rfl rfl]
  obtain ⟨hc, -, hst, -⟩ := hfree
  simp [State.passWrite, State.granted, State.endCycle, State.writeMem, hc, hst]

/-- What one write of the call store leaves in a later state with that store. -/
theorem State.written {s t : State} (a v : Word) (hstore : s.StoreInv) (hmem : t.mem = (s.writeMem a v).mem) :
    t.readMem a = v ∧ ∀ b, b ≠ a → t.readMem b = s.readMem b := by
  simp only [State.readMem, hmem]
  exact ⟨s.readMem_writeMem_same a v hstore, fun b hb => s.readMem_writeMem_ne a b v hb.symm⟩

/-- A write that ends with PBERR in its own event, with the guarded-write sticky (R144, R161). -/
theorem exec_refusedWrite {s : State} {a v : Word} (later : Bool) (hfree : s.PortFree) (hp : s.phase ≠ .held)
    (hpassed : s.isPassed (.write a v) = false)
    (hperform : ∀ b m g, (s.granted (.write a v) b m g).performCycle (.write a v) = (s.granted (.write a v) b m g).refuseWrite) :
    State.ArbiterOnly { s with ends := [.pberr], readPair := none, guardedWrite := true } (s.presentCycle (.write a v) later) := by
  refine State.presentCycle_arbiterOnly hfree hp (.inr hpassed) (fun b m g => ?_) hfree.1
  rw [hperform]
  obtain ⟨hc, -, hst, -⟩ := hfree
  simp [State.refuseWrite, State.setGuardedWrite, State.granted, State.endCycle, hc, hst]

/-- The treatment of the writes of O15's first part: passed, with no other effect (R144, R159). -/
theorem State.performCycle_write_passed {s : State} {a v : Word} (hready : s.phase = .ready)
    (h : s.map.region a = .outside ∨ (∃ off, s.map.region a = .cells off ∧ off ≠ 4)
      ∨ ∃ off, s.map.region a = .order off ∧ off % 4 = 3 ∧ v.getLsbD 15 = true) :
    s.isPassed (.write a v) = true ∧
      ∀ u : State, u.phase = s.phase → u.map = s.map → u.performCycle (.write a v) = u.passWrite a v := by
  refine ⟨?_, fun u hu hm => ?_⟩
  · rcases h with hr | ⟨off, hr, -⟩ | ⟨off, hr, -, hbit⟩ <;> simp [State.isPassed, *]
  · rcases h with hr | ⟨off, hr, hoff⟩ | ⟨off, hr, hoff, hbit⟩ <;>
      simp [State.performCycle, State.readyWrite, State.judgeOrderWord, *]

theorem State.pairGranted_write (s : State) (a v : Word) : s.pairGranted (.write a v) = s.readPair := rfl

/-- A write that memory completes in a later event owns the port from its grant (R162). -/
theorem exec_laterWrite {s : State} {a v : Word} (hfree : s.PortFree) (hpassed : s.isPassed (.write a v) = true) :
    s.OwnsPort (s.presentCycle (.write a v) true) (.write a v) s.readPair :=
  State.presentCycle_later s (.write a v) hfree hpassed

/-- Settles O15: a passed write stores its word and ends with PRDY, a guarded one ends with PBERR. -/
theorem writesPassedOrGuarded : Obligations.WritesPassedOrGuarded := by
  unfold Obligations.WritesPassedOrGuarded
  constructor
  · intro s a v hfree hready hstore hwhere
    obtain ⟨hpassed, hperform⟩ := State.performCycle_write_passed hready hwhere
    have harb := exec_passedWrite hfree (by simp [hready]) hperform
    refine ⟨⟨_, rfl, ?_, s.written a v hstore harb.mem⟩, ⟨_, rfl, exec_laterWrite hfree hpassed⟩⟩
    simp only [harb.mem]
    exact harb
  · intro s a v hfree hready hwhere
    refine ⟨_, rfl, exec_refusedWrite false hfree (by simp [hready]) ?_ fun b m g => ?_⟩
    · rcases hwhere with ⟨off, hr⟩ | ⟨off, hr⟩ | ⟨off, hr⟩ <;> simp [State.isPassed, hready, hr]
    · rcases hwhere with ⟨off, hr⟩ | ⟨off, hr⟩ | ⟨off, hr⟩ <;>
        simp [State.granted, State.performCycle, State.readyWrite, hready, hr]

/-! ## Argument words (R143) -/

theorem offsetSlot_slot (i : OrderSlot) {word : Nat} (hw : word < 4) : offsetSlot (4 * i.val + word) = i := by
  apply Fin.ext
  simp only [offsetSlot, Fin.ofNat]
  omega

/-- The word of an order slot lies in ORDER at four times the slot. -/
theorem region_slotAddr {m : RegionMap} {threshold : Nat} (h : configValid m threshold = true) (i : OrderSlot) {word : Nat}
    (hw : word < 4) : m.region (m.slotAddr i word) = .order (4 * i.val + word) := region_orderAddr h (by omega)

/-- What a capture leaves in its own slot (R143). -/
theorem State.capture_slot_same (s : State) (i : OrderSlot) (w : Fin 3) (v : Word) :
    (s.capture i w.val v).slot i =
      if (s.slot i).state = .idle then
        { s.slot i with
          w0 := if w = 0 then v else (s.slot i).w0, w1 := if w = 1 then v else (s.slot i).w1,
          w2 := if w = 2 then v else (s.slot i).w2 }
      else s.slot i := by
  unfold State.capture
  split
  · rw [State.slot_modifySlot_same]
    fin_cases w <;> rfl
  · rfl

theorem State.capture_slot_ne (s : State) {i j : OrderSlot} (word : Nat) (v : Word) (h : j ≠ i) :
    (s.capture i word v).slot j = s.slot j := by
  unfold State.capture
  split
  · exact s.slot_modifySlot_ne i j _ h
  · rfl

/-- A capture changes the slots alone. -/
theorem State.capture_frame (s : State) (i : OrderSlot) (word : Nat) (v : Word) :
    s.capture i word v = { s with slots := (s.capture i word v).slots } := by
  unfold State.capture
  split <;> rfl

/-- The slots that a capture leaves depend on the slots alone. -/
theorem State.capture_slots {s u : State} (i : OrderSlot) (word : Nat) (v : Word) (h : u.slots = s.slots) :
    (u.capture i word v).slots = (s.capture i word v).slots := by
  have hslot : u.slot i = s.slot i := by simp only [State.slot, h]
  unfold State.capture
  rw [hslot]
  split
  · simp only [State.modifySlot, hslot, h]
  · exact h

/-- ARGUMENT_WORD_WRITE that memory completes in its own event. -/
theorem exec_argumentWord {s : State} (i : OrderSlot) (w : Fin 3) (v : Word) (hfree : s.PortFree) (hready : s.phase = .ready)
    (hmap : s.MapInv) :
    State.ArbiterOnly
      { s.writeMem (s.map.slotAddr i w.val) v with ends := [.prdy], readPair := none, slots := (s.capture i w.val v).slots }
      (s.presentCycle (.write (s.map.slotAddr i w.val) v) false) := by
  have hregion := region_slotAddr (hmap hready) i (word := w.val) (by omega)
  have hmod : (4 * i.val + w.val) % 4 = w.val := by omega
  refine State.presentCycle_arbiterOnly hfree (by simp [hready]) (.inl rfl) (fun b m g => ?_) hfree.1
  obtain ⟨hc, -, hst, -⟩ := hfree
  generalize hu : s.granted (.write (s.map.slotAddr i w.val) v) b m g = u
  have hperform : u.performCycle (.write (s.map.slotAddr i w.val) v) =
      (u.passWrite (s.map.slotAddr i w.val) v).capture i w.val v := by
    have hne : w.val ≠ 3 := by omega
    subst hu
    simp only [State.granted, State.performCycle, hready, State.readyWrite, hregion, hmod, hne, if_false,
      offsetSlot_slot i (show w.val < 4 by omega)]
  rw [hperform, State.capture_frame, State.capture_slots (s := s) i w.val v (by subst hu; rfl)]
  subst hu
  simp [State.passWrite, State.granted, State.endCycle, State.writeMem, hc, hst]

/-- Settles O20: the write is passed in every slot state, and captured at an IDLE slot. -/
theorem argumentWordCaptured : Obligations.ArgumentWordCaptured := by
  unfold Obligations.ArgumentWordCaptured
  intro s i w v hfree hready hmap hstore
  have hregion := region_slotAddr (hmap hready) i (word := w.val) (by omega)
  have hpassed : s.isPassed (.write (s.map.slotAddr i w.val) v) = true := by
    simp only [State.isPassed, hready, hregion]
    have hmod : w.val % 4 ≠ 3 := by omega
    simp [hmod]
  obtain ⟨t, ht, harb⟩ : ∃ t, exec (.argumentWordWrite i w ⟨v, false⟩) s = .next t ∧ State.ArbiterOnly _ t :=
    ⟨_, rfl, exec_argumentWord i w v hfree hready hmap⟩
  obtain ⟨hsame, hother⟩ := s.written _ v hstore harb.mem
  have hslot : ∀ j, t.slot j = (s.capture i w.val v).slot j := by
    intro j
    simp only [State.slot, harb.slots]
  refine ⟨⟨_, rfl, exec_laterWrite hfree hpassed⟩, t, ht, ?_, hsame, hother, fun j hj => ?_, ?_⟩
  · rw [harb.mem, harb.slots]
    exact harb
  · exact (hslot j).trans (s.capture_slot_ne w.val v hj)
  · exact (hslot i).trans (s.capture_slot_same i w v)

/-! ## Order words (R144, R146) -/

section OrderWord

variable {s : State} {i : OrderSlot} {v : Word}

/-- The judgement of an order word at a free port (R144). -/
theorem State.performCycle_orderWord (hready : s.phase = .ready) (hmap : s.MapInv) (c : Cycle) (b : BurstState) (m : Bool) (g : Nat) :
    (s.granted c b m g).performCycle (.write (s.map.slotAddr i 3) v) =
      (s.granted c b m g).judgeOrderWord i (s.map.slotAddr i 3) v := by
  have hregion := region_slotAddr (hmap hready) i (word := 3) (by decide)
  have hmod : (4 * i.val + 3) % 4 = 3 := by omega
  simp only [State.granted, State.performCycle, hready, State.readyWrite, hregion, hmod, if_true, offsetSlot_slot i (show 3 < 4 by decide)]

theorem State.isPassed_orderWord (hready : s.phase = .ready) (hmap : s.MapInv) :
    s.isPassed (.write (s.map.slotAddr i 3) v) = v.getLsbD 15 := by
  have hregion := region_slotAddr (hmap hready) i (word := 3) (by decide)
  simp [State.isPassed, hready, hregion]

/-- With a place in the queue the write of an IDLE slot takes the port (R144). -/
theorem exec_orderWord_room (later : Bool) (hfree : s.PortFree) (hready : s.phase = .ready) (hmap : s.MapInv)
    (hv : v.getLsbD 15 = false) (hidle : (s.slot i).state = .idle) (hroom : s.orderQueue.length < 8) :
    let t := s.presentCycle (.write (s.map.slotAddr i 3) v) later
    State.ArbiterOnly { s with ends := [], cycles := [.write (s.map.slotAddr i 3) v] } t ∧ t.owner = .processor := by
  obtain ⟨b, m, g, e⟩ := s.presentCycle_performed (.write (s.map.slotAddr i 3) v) later hfree (by simp [hready])
    (.inr ((s.isPassed_orderWord hready hmap).trans hv))
  intro t
  have hjudged : (s.granted (.write (s.map.slotAddr i 3) v) b m g).judgeOrderWord i (s.map.slotAddr i 3) v =
      { s.granted (.write (s.map.slotAddr i 3) v) b m g with
        owner := .processor, accessLeft := Config.accessPeriods, stretch := .none } := by
    have hslot : ((s.granted (.write (s.map.slotAddr i 3) v) b m g).slot i).state = .idle := hidle
    have horder : (s.granted (.write (s.map.slotAddr i 3) v) b m g).orderRoom = true := by
      simp [State.orderRoom, State.granted, Config.orderQueueCapacity, hroom]
    simp only [State.judgeOrderWord, hv, hslot, horder, Bool.false_eq_true, if_false, ne_eq, not_true_eq_false, if_true]
  have ht : t = _ := e.trans (by rw [State.performCycle_orderWord hready hmap, hjudged, arbitrate_owned _ 5 Owner.noConfusion])
  rw [ht, State.raiseRequests_eq]
  refine ⟨?_, rfl⟩
  obtain ⟨hc, ho, hst, hg⟩ := hfree
  rw [← hst]
  rfl

/-- At a full queue the write of an IDLE slot is stretched (R146). -/
theorem exec_orderWord_full (later : Bool) (hfree : s.PortFree) (hready : s.phase = .ready) (hmap : s.MapInv)
    (hv : v.getLsbD 15 = false) (hidle : (s.slot i).state = .idle) (hfull : 8 ≤ s.orderQueue.length) :
    State.ArbiterOnly { s with ends := [], cycles := [.write (s.map.slotAddr i 3) v], stretch := .held 164 }
      (s.presentCycle (.write (s.map.slotAddr i 3) v) later) := by
  obtain ⟨b, m, g, e⟩ := s.presentCycle_performed (.write (s.map.slotAddr i 3) v) later hfree (by simp [hready])
    (.inr ((s.isPassed_orderWord hready hmap).trans hv))
  have hjudged : (s.granted (.write (s.map.slotAddr i 3) v) b m g).judgeOrderWord i (s.map.slotAddr i 3) v =
      { s.granted (.write (s.map.slotAddr i 3) v) b m g with stretch := .held Config.stretchPeriods } := by
    have hslot : ((s.granted (.write (s.map.slotAddr i 3) v) b m g).slot i).state = .idle := hidle
    have horder : (s.granted (.write (s.map.slotAddr i 3) v) b m g).orderRoom = false := by
      simp [State.orderRoom, State.granted, Config.orderQueueCapacity, Nat.not_lt.mpr hfull]
    simp only [State.judgeOrderWord, hv, hslot, horder, Bool.false_eq_true, if_false, ne_eq, not_true_eq_false]
  rw [e, State.performCycle_orderWord hready hmap, hjudged]
  exact (arbitrate_noGrant _ 6 _ rfl).rebase

end OrderWord

/-- Settles O21: bit 15, the slot's state and the queue judge the write. -/
theorem orderWordJudged : Obligations.OrderWordJudged := by
  unfold Obligations.OrderWordJudged
  intro s i v later hfree hready hmap hstore
  have hp : s.phase ≠ .held := by simp [hready]
  have hpassed := s.isPassed_orderWord (i := i) (v := v) hready hmap
  have hregion := region_slotAddr (hmap hready) i (word := 3) (by decide)
  refine ⟨s.presentCycle (.write (s.map.slotAddr i 3) v) later, rfl, fun hv hlater => ?_, fun hv hlater => ?_, fun hv hbusy => ?_,
    fun hv hidle hroom => exec_orderWord_room later hfree hready hmap hv hidle hroom,
    fun hv hidle hfull => exec_orderWord_full later hfree hready hmap hv hidle hfull⟩
  · subst hlater
    exact exec_laterWrite hfree (hpassed.trans hv)
  · subst hlater
    have hperform := (State.performCycle_write_passed hready (.inr (.inr ⟨_, hregion, by omega, hv⟩))).2
    have harb := exec_passedWrite hfree hp hperform
    refine ⟨?_, s.written _ v hstore harb.mem⟩
    simp only [harb.mem]
    exact harb
  · refine exec_refusedWrite later hfree hp (hpassed.trans hv) fun b m g => ?_
    rw [State.performCycle_orderWord hready hmap]
    have hslot : ((s.granted (.write (s.map.slotAddr i 3) v) b m g).slot i).state ≠ .idle := hbusy
    simp only [State.judgeOrderWord, hv, hslot, Bool.false_eq_true, if_false, ne_eq, not_false_eq_true, if_true]

/-! ## The ends of an order write (R145, R146) -/

/-- `s` after the word of an order write has been stored and its cycle has ended (R145). -/
def State.orderWordStored (s : State) (a v : Word) : State :=
  { s with
    ends := s.ends ++ [.prdy], cycles := [], readPair := none, stretch := .none, owner := .none, accessLeft := 0,
    mem := (s.writeMem a v).mem }

section OrderWriteEnd

variable {s : State} {a v : Word} {off : Nat}

/-- The entry that an order write of a slot adds to the queue (R145). -/
def State.writtenEntry (s : State) (off : Nat) (v : Word) : OrderEntry :=
  { slot := offsetSlot off, kind := v.extractLsb' 0 5, w0 := (s.slot (offsetSlot off)).w0, w1 := (s.slot (offsetSlot off)).w1,
    w2 := (s.slot (offsetSlot off)).w2 }

theorem State.orderWordStored_mayTake (hready : s.phase = .ready) (hroom : s.orderQueue.length < 8)
    (hidle : (s.slot (offsetSlot off)).state = .idle) : (s.orderWordStored a v).mayTake (s.writtenEntry off v) = true := by
  simp only [State.slot, Fin.getElem_fin] at hidle
  simp [State.mayTake, State.isReady, State.writtenEntry, State.slot, State.slotReserved, State.placeReserved,
    State.orderWordStored, hready, Config.orderQueueCapacity, hroom, hidle]

/-- ORDER_TAKEN stores the word, ends the cycle, and gives the order (R145). -/
theorem exec_orderTaken (hready : s.phase = .ready) (howner : s.owner = .processor) (hcycles : s.cycles = [.write a v])
    (hregion : s.map.region a = .order off) (hroom : s.orderQueue.length < 8) (hidle : (s.slot (offsetSlot off)).state = .idle) :
    exec .orderTaken s = .next ((s.orderWordStored a v).giveOrder (s.writtenEntry off v)) := by
  have htake := State.orderWordStored_mayTake (a := a) (v := v) hready hroom hidle
  have hstored : ((s.writeMem a v).endCycle .prdy none).freePort = s.orderWordStored a v := by
    simp [State.endCycle, State.freePort, State.orderWordStored, hcycles, State.writeMem]
  have hdone : s.processorAccessDone = (s.orderWordStored a v).takeOrder (s.writtenEntry off v) := by
    simp only [State.processorAccessDone, hcycles, State.orderWriteDone, hstored]
    have hr : (s.orderWordStored a v).map.region a = .order off := hregion
    simp only [hr]
    exact if_pos htake
  refine (running_next _ (by simp [hready])).trans ?_
  rw [State.orderTakenEvent, if_pos howner, hdone, State.giveOrder, if_pos htake]

end OrderWriteEnd

/-- The entry of an order command reads the slots of the state alone. -/
theorem State.entryOf_congr {s u : State} (h : u.slots = s.slots) (i : Instr) : u.entryOf i = s.entryOf i := by
  have hentry : u.orderEntry = s.orderEntry := by
    funext slot kind w0 w1 w2
    simp only [State.orderEntry, State.slot, h]
  cases i <;> simp only [State.entryOf, hentry]

/-- An order taken while the dispatcher waits is queued (R145, R148). -/
theorem State.giveOrder_queued {s : State} {e : OrderEntry} {j : OrderSlot} (htake : s.mayTake e = true) (hd : s.dispatcher = .waiting j) :
    s.giveOrder e = (s.enqueueOrder e).askPort := by
  rw [State.giveOrder, if_pos htake, State.takeOrder, State.runDispatch, runDispatcher_waiting _ _ j (by exact hd)]

theorem State.enqueueOrder_slot (s : State) (e : OrderEntry) (k : OrderSlot) :
    (s.enqueueOrder e).slot k = if k = e.slot then { s.slot k with state := .queued } else s.slot k := by
  split
  next h =>
    subst h
    exact State.slot_modifySlot_same _ _ _
  next h => exact State.slot_modifySlot_ne _ _ _ _ h

/-- Settles O22: the word is stored and the order given, or the stretch ends with PBERR. -/
theorem orderWriteEnds : Obligations.OrderWriteEnds := by
  unfold Obligations.OrderWriteEnds
  refine ⟨?_, ?_, ?_⟩
  · intro s a v off j hready hstore howner hcycles hregion hroom hd hidle
    have hexec := exec_orderTaken hready howner hcycles hregion hroom hidle
    rw [State.giveOrder_queued (State.orderWordStored_mayTake hready hroom hidle) hd] at hexec
    have harb := ((s.orderWordStored a v).enqueueOrder (s.writtenEntry off v)).askPort_arbiterOnly rfl
    refine ⟨_, hexec, ?_, (s.written a v hstore harb.mem).1, (s.written a v hstore harb.mem).2, fun i => ?_⟩
    · simp only [harb.mem, harb.slots]
      exact harb.rebase
    · simp only [State.slot, harb.slots]
      exact State.enqueueOrder_slot _ _ i
  · intro s a v off i hready howner hcycles hregion hroom hidle hentry
    rw [exec_orderTaken hready howner hcycles hregion hroom hidle]
    exact (exec_of_entryOf (s := s.orderWordStored a v) ((State.entryOf_congr rfl i).trans hentry)).symm
  · intro s n c hp hst hcycles
    refine ⟨_, running_next _ hp, ?_⟩
    have hrefuse : s.stretchExpired = s.refuseWrite.askPort := by rw [State.stretchExpired, hst]
    have harb := s.refuseWrite.askPort_arbiterOnly (by simp [State.refuseWrite, State.setGuardedWrite, State.endCycle, hcycles])
    rw [hrefuse]
    have hcyc : [] = s.cycles.tail := by rw [hcycles]; rfl
    rw [hcyc]
    exact harb

end Sys2Proof.Machine
end

section
/-!
PROOF. The taking of orders (O24, O25), and the orders that are answered in their own event from their checks: the refusals of the
CONNECT orders (O27), RELEASE of a record that is in no make job (O30), ADD CREDIT (O33), SET METER (O35) and SERVICE (O40).
-/

namespace Sys2Proof.Machine

set_option Elab.async false

/-! ## Taking an order (R144, R145, R148) -/

/-- An order of a busy slot, or behind a full queue, is not taken (R144). -/
theorem State.mayTake_refused {s : State} {e : OrderEntry} (h : (s.slot e.slot).state ≠ .idle ∨ 8 ≤ s.orderQueue.length) :
    s.mayTake e = false := by
  rcases h with hbusy | hfull
  · simp [State.mayTake, hbusy]
  · have hroom : ¬ s.orderQueue.length + s.placeReserved < Config.orderQueueCapacity := by
      rw [Config.orderQueueCapacity]
      omega
    simp [State.mayTake, hroom]

/-- An order of an IDLE slot with a place in the queue, and no order write under way, is taken (R144). -/
theorem State.mayTake_room {s : State} {e : OrderEntry} (hready : s.phase = .ready) (hidle : (s.slot e.slot).state = .idle)
    (hroom : s.orderQueue.length < 8) (hst : s.stretch = .none) (ho : s.owner ≠ .processor) : s.mayTake e = true := by
  simp [State.mayTake, State.isReady, hready, hidle, State.slotReserved, State.placeReserved, hst, ho, Config.orderQueueCapacity,
    hroom]

/-- Settles O24: the order is queued, or its command changes nothing. -/
theorem orderQueuedOrNotTaken : Obligations.OrderQueuedOrNotTaken := by
  unfold Obligations.OrderQueuedOrNotTaken
  intro s i e hentry hready
  refine ⟨fun j hidle hroom hd hcycles hst ho => ?_, fun h => ?_⟩
  · have htake := State.mayTake_room hready hidle hroom hst ho
    have harb := (s.enqueueOrder e).askPort_arbiterOnly hcycles
    refine ⟨_, (exec_of_entryOf hentry).trans (by rw [State.giveOrder_queued htake hd]), ?_, fun k => ?_⟩
    · simp only [harb.slots]
      exact harb.rebase
    · rw [State.slot, harb.slots]
      exact s.enqueueOrder_slot e k
  · rw [exec_of_entryOf hentry, State.giveOrder_refused s e (State.mayTake_refused h)]

/-- Settles O25: no kind outside 1 to 13 names an order. -/
theorem badOrderAnswered : Obligations.BadOrderAnswered := by
  unfold Obligations.BadOrderAnswered
  intro s i kind w0 w1 w2 hkind hs
  refine exec_order_answered (e := s.orderEntry i kind (some w0) (some w1) (some w2)) rfl hs rfl ?_
  have hlt := kind.isLt
  unfold applyOrder
  split
  case h_14 => rfl
  all_goals (rename_i h; change kind.toNat = _ at h; omega)

/-! ## The checks of the CONNECT orders (R28 to R30) -/

/-- The checks of a calling line (R28, R29). -/
theorem State.callerRefusal_eq (s : State) (a : Line) :
    s.callerRefusal a =
      if (s.line a).cls = .spare then some .badLine
      else if (s.line a).cls = .incomingOnly then some .barred
      else if (s.line a).busy ≠ none then some .callerBusy
      else none := by
  simp only [State.callerRefusal, State.lineBusy, Option.isSome_iff_ne_none]

/-- The checks of a called line (R28, R30). -/
theorem State.calledRefusal_eq (s : State) (b : Line) :
    s.calledRefusal b =
      if (s.line b).cls = .spare then some .unobtainable
      else if (s.line b).busy ≠ none then some .calledBusy
      else none := by
  simp only [State.calledRefusal, State.lineBusy, Option.isSome_iff_ne_none]

theorem classTicketed_iff (c : LineClass) : classTicketed c = true ↔ c = .coin ∨ c = .detailed := by
  simp [classTicketed]

theorem State.billingFull_iff (s : State) : s.billingFull = true ↔ 8 ≤ s.holdQueue.length :=
  decide_eq_true_iff (p := Config.holdQueueCapacity ≤ s.holdQueue.length)

/-- The checks of CONNECT LOCAL before its hunt, in their order (R28). -/
theorem State.localRefusal_eq (s : State) (a b : Line) :
    s.localRefusal a b =
      if (s.line a).cls = .spare then some .badLine
      else if (s.line a).cls = .incomingOnly then some .barred
      else if (s.line a).busy ≠ none then some .callerBusy
      else if (s.line b).cls = .spare then some .unobtainable
      else if (s.line b).busy ≠ none then some .calledBusy
      else if ((s.line a).cls = .coin ∨ (s.line a).cls = .detailed) ∧ 8 ≤ s.holdQueue.length then some .billingFull
      else none := by
  rw [State.localRefusal, State.callerRefusal_eq, State.calledRefusal_eq]
  simp only [Bool.and_eq_true, classTicketed_iff, State.billingFull_iff]
  split_ifs <;> rfl

/-- The checks of CONNECT OUTGOING before its hunt, in their order (R29). -/
theorem State.outgoingRefusal_eq (s : State) (a : Line) :
    s.outgoingRefusal a =
      if (s.line a).cls = .spare then some .badLine
      else if (s.line a).cls = .incomingOnly then some .barred
      else if (s.line a).busy ≠ none then some .callerBusy
      else if 8 ≤ s.holdQueue.length then some .billingFull
      else none := by
  rw [State.outgoingRefusal, State.callerRefusal_eq]
  simp only [State.billingFull_iff]
  split_ifs <;> rfl

theorem circuitArg_none {w : Word} (h : 56 ≤ w.toNat) : circuitArg w = none := dif_neg (Nat.not_lt.mpr h)

theorem circuitArg_circuit {w : Word} {x : Circuit} (h : w.toNat = x.val) : circuitArg w = some x := by
  simp [circuitArg, h]

theorem groupArg_none {w : Word} (h : 3 ≤ w.toNat) : groupArg w = none := dif_neg (Nat.not_lt.mpr h)

theorem groupArg_group {w : Word} {g : JunctionGroup} (h : w.toNat = g.val) : groupArg w = some g := by
  simp [groupArg, h]

theorem outgoingDistArg_none {w : Word} (h : w.toNat < 1 ∨ 8 ≤ w.toNat) : outgoingDistArg w = none := dif_neg (by omega)

theorem outgoingDistArg_dist {w : Word} {d : DistBand} (h : w.toNat = d.val) (hd : d ≠ 0) : outgoingDistArg w = some d := by
  have hpos : 1 ≤ d.val := Nat.one_le_iff_ne_zero.mpr fun h0 => hd (Fin.ext h0)
  simp [outgoingDistArg, h, hpos]

theorem applyConnectLocal_badArgument {i : OrderSlot} {w0 w1 : Word} (s : State)
    (h : 512 ≤ w0.toNat ∨ 512 ≤ w1.toNat ∨ w0 = w1) : applyConnectLocal i w0 w1 s = .result .badArgument none s := by
  unfold applyConnectLocal
  split
  next a b ha hb =>
    have hab : a = b := by
      rcases h with h | h | rfl
      · rw [lineArg_none h] at ha; cases ha
      · rw [lineArg_none h] at hb; cases hb
      · exact Option.some.inj (ha.symm.trans hb)
    exact if_pos hab
  next => rfl
  next => rfl

/-- CONNECT LOCAL refused by a check (R28). -/
theorem applyConnectLocal_refused {i : OrderSlot} {w0 w1 : Word} {a b : Line} {code : ResultCode} (s : State)
    (ha : w0.toNat = a.val) (hb : w1.toNat = b.val) (hab : a ≠ b) (h : s.localRefusal a b = some code) :
    applyConnectLocal i w0 w1 s = .result code none s := by
  simp only [applyConnectLocal, lineArg_line ha, lineArg_line hb, if_neg hab, h]

theorem applyConnectOutgoing_badArgument {i : OrderSlot} {w0 w1 w2 : Word} (s : State)
    (h : lineArg w0 = none ∨ groupArg w1 = none ∨ outgoingDistArg w2 = none) :
    applyConnectOutgoing i w0 w1 w2 s = .result .badArgument none s := by
  unfold applyConnectOutgoing
  split
  next ha hg hd => simp [ha, hg, hd] at h
  next => rfl
  next => rfl
  next => rfl

/-- CONNECT OUTGOING refused by a check (R29). -/
theorem applyConnectOutgoing_refused {i : OrderSlot} {w0 w1 w2 : Word} {a : Line} {g : JunctionGroup} {d : DistBand}
    {code : ResultCode} (s : State) (ha : lineArg w0 = some a) (hg : groupArg w1 = some g) (hd : outgoingDistArg w2 = some d)
    (h : s.outgoingRefusal a = some code) : applyConnectOutgoing i w0 w1 w2 s = .result code none s := by
  simp only [applyConnectOutgoing, ha, hg, hd, h]

theorem applyConnectIncoming_badArgument {i : OrderSlot} {w0 w1 : Word} {x : Circuit} (s : State) (hx : w0.toNat = x.val)
    (h : x.val < 48 ∨ 512 ≤ w1.toNat) : applyConnectIncoming i w0 w1 s = .result .badArgument (some x) s := by
  unfold applyConnectIncoming
  rw [circuitArg_circuit hx]
  split
  next x' b hx' hb =>
    cases hx'
    have hkind : circuitKind x ≠ .incoming := by
      rcases h with h | h
      · unfold circuitKind
        split_ifs <;> simp
      · rw [lineArg_none h] at hb; cases hb
    exact if_pos hkind
  next x' hx' hb => cases hx'; rfl
  next hx' => cases hx'

/-- The checks of CONNECT INCOMING before its hunt, in their order (R30). -/
theorem applyConnectIncoming_refused {i : OrderSlot} {w0 w1 : Word} {x : Circuit} {b : Line} {code : ResultCode} (s : State)
    (hx : w0.toNat = x.val) (hb : w1.toNat = b.val) (hin : 48 ≤ x.val)
    (h : (if (s.record x).state ≠ .seized then some ResultCode.notActive else s.calledRefusal b) = some code) :
    applyConnectIncoming i w0 w1 s = .result code (some x) s := by
  simp only [applyConnectIncoming, circuitArg_circuit hx, lineArg_line hb, circuitKind_incoming hin, ne_eq, not_true_eq_false,
    if_false]
  split at h
  next hstate => cases h; exact if_pos hstate
  next hstate => simp only [if_neg hstate, h]

/-- Settles O27: each order's arguments are read, and its checks made in their order. -/
theorem connectRefusals : Obligations.ConnectRefusals := by
  unfold Obligations.ConnectRefusals
  refine ⟨fun s i a b w0 w1 hs => ⟨fun h => ?_, fun code hab ha hb h => ?_⟩,
    fun s i a w0 w1 w2 hs => ⟨fun h => ?_, fun code ha hg hlo hhi h => ?_⟩, fun s i w0 w1 hs h => ?_,
    fun s i x b w0 w1 hs hx => ⟨fun h => ?_, fun code hin hb h => ?_⟩⟩
  · exact exec_order_answered (e := s.orderEntry i 1 (some w0) (some w1) none) rfl hs rfl (applyConnectLocal_badArgument _ h)
  · exact exec_order_answered (e := s.orderEntry i 1 (some w0) (some w1) none) rfl hs rfl
      (applyConnectLocal_refused _ ha hb hab ((State.localRefusal_eq _ a b).trans h))
  · refine exec_order_answered (e := s.orderEntry i 2 (some w0) (some w1) (some w2)) rfl hs rfl
      (applyConnectOutgoing_badArgument _ ?_)
    rcases h with h | h | h
    · exact .inl (lineArg_none h)
    · exact .inr (.inl (groupArg_none h))
    · exact .inr (.inr (outgoingDistArg_none h))
  · have hg' : groupArg w1 = some ⟨w1.toNat, hg⟩ := dif_pos hg
    have hd' : outgoingDistArg w2 = some ⟨w2.toNat, hhi⟩ := dif_pos ⟨hlo, hhi⟩
    exact exec_order_answered (e := s.orderEntry i 2 (some w0) (some w1) (some w2)) rfl hs rfl
      (applyConnectOutgoing_refused _ (lineArg_line ha) hg' hd' ((State.outgoingRefusal_eq _ a).trans h))
  · refine exec_order_answered (e := s.orderEntry i 3 (some w0) (some w1) none) rfl hs rfl ?_
    change applyConnectIncoming i w0 w1 _ = _
    simp only [applyConnectIncoming, circuitArg_none h]
  · exact exec_order_answered (e := s.orderEntry i 3 (some w0) (some w1) none) rfl hs rfl (applyConnectIncoming_badArgument _ hx h)
  · refine exec_order_answered (e := s.orderEntry i 3 (some w0) (some w1) none) rfl hs rfl (applyConnectIncoming_refused _ hx hb hin ?_)
    rw [State.calledRefusal_eq]
    exact h

/-! ## RELEASE of a record that is in no make job (R33, R35) -/

/-- RELEASE of a record that is not active (R33). -/
theorem applyRelease_notActive {w : Word} {x : Circuit} (s : State) (hx : w.toNat = x.val)
    (h : (s.record x).state = .free ∨ (s.record x).state = .guarded ∨ (s.record x).state = .seized
      ∨ (s.record x).state = .clearing ∨ (s.record x).state = .closing) :
    applyRelease w s = .result .notActive (some x) s := by
  simp only [applyRelease, circuitArg_circuit hx]
  rcases h with h | h | h | h | h <;> simp only [h]

/-- RELEASE of a record that is ringing or answered (R35). -/
theorem applyRelease_clears {w : Word} {x : Circuit} (s : State) (hx : w.toNat = x.val)
    (h : (s.record x).state = .ringing ∨ (s.record x).state = .answered) :
    applyRelease w s = .result .done (some x) (s.enterClearing x .order) := by
  simp only [applyRelease, circuitArg_circuit hx]
  rcases h with h | h <;> simp only [h]

/-- The report queue after a report is handed over (R168). -/
def reportsAfter (q : List Report) (r : Report) : List Report := if q.length < Config.reportQueueCapacity then q ++ [r] else q

/-- The reports-lost sticky after a report is handed over (R168). -/
def lostAfter (q : List Report) (lost : Bool) : Bool := if q.length < Config.reportQueueCapacity then lost else true

/-- Handing over a report is a change of two fields that reads no other. -/
theorem State.report_eq (s : State) (r : Report) :
    s.report r = { s with reports := reportsAfter s.reports r, reportsLost := lostAfter s.reports s.reportsLost } := by
  unfold State.report reportsAfter lostAfter
  split <;> rfl

/-- Clearing a record and setting a slot's state do not touch each other. -/
theorem State.clearedTo_setSlotState (s : State) (i : OrderSlot) (st : SlotState) (x : Circuit) (c : ClearCause) (xp : Crosspoint) :
    (s.setSlotState i st).clearedTo x c xp = (s.clearedTo x c xp).setSlotState i st := by
  simp only [State.clearedTo, State.report_eq]
  rfl

theorem State.clearedTo_cycles (s : State) (x : Circuit) (c : ClearCause) (xp : Crosspoint) :
    (s.clearedTo x c xp).cycles = s.cycles := State.report_cycles _ _

/-- Settles O30, by the state of the record. -/
theorem releaseAnsweredOrClears : Obligations.ReleaseAnsweredOrClears := by
  unfold Obligations.ReleaseAnsweredOrClears
  intro s i w hs
  let e := s.orderEntry i 4 (some w) none none
  refine ⟨fun h => ?_, fun x hx => ⟨fun h => ?_, fun xp h hmade => ?_⟩⟩
  · refine exec_order_answered (e := e) rfl hs rfl ?_
    change applyRelease w _ = _
    simp only [applyRelease, circuitArg_none h]
  · exact exec_order_answered (e := e) rfl hs rfl (applyRelease_notActive (s.setSlotState i .inFlight) hx h)
  · refine exec_order_answered (e := e) rfl hs (s.clearedTo_cycles x .order xp) ?_
    refine (applyRelease_clears (s.setSlotState i .inFlight) hx h).trans ?_
    rw [State.enterClearing_made (s.setSlotState i .inFlight) x .order xp hmade, State.clearedTo_setSlotState]
    rfl

/-! ## SERVICE (R10) -/

theorem lineGroupArg_none {w : Word} (h : 16 ≤ w.toNat) : lineGroupArg w = none := dif_neg (Nat.not_lt.mpr h)

theorem lineGroupArg_group {w : Word} {g : LineGroup} (h : w.toNat = g.val) : lineGroupArg w = some g := by
  simp [lineGroupArg, h]

theorem serviceLinkArg_none {w : Word} (h : 10 ≤ w.toNat % 16) : serviceLinkArg w = none :=
  dif_neg (by simp only [bitField, BitVec.extractLsb'_toNat, Nat.shiftRight_eq_div_pow]; omega)

theorem serviceLinkArg_link {w : Word} {k : LinkNo} (h : w.toNat % 16 = k.val) : serviceLinkArg w = some k := by
  have hfield : bitField w 0 4 = k.val := by
    simp only [bitField, BitVec.extractLsb'_toNat, Nat.shiftRight_eq_div_pow]
    omega
  simp [serviceLinkArg, hfield]

/-- The direction is the top bit of the word (section 11.1). -/
theorem serviceDirection_eq (w : Word) : serviceDirection w = decide (32768 ≤ w.toNat) := by
  have hlt := w.isLt
  rw [serviceDirection, BitVec.getLsbD, Nat.testBit_eq_decide_div_mod_eq, decide_eq_decide]
  omega

theorem applyServiceLink_badArgument {w1 w2 : Word} (s : State) (h : lineGroupArg w1 = none ∨ serviceLinkArg w2 = none) :
    applyServiceLink w1 w2 s = .result .badArgument none s := by
  unfold applyServiceLink
  split
  next hg hk => simp [hg, hk] at h
  next => rfl
  next => rfl

theorem applyServiceLink_link {w1 w2 : Word} {g : LineGroup} {k : LinkNo} (s : State) (hg : lineGroupArg w1 = some g)
    (hk : serviceLinkArg w2 = some k) :
    applyServiceLink w1 w2 s = .result .done none (s.modifyLink (g, k) fun l => { l with inService := serviceDirection w2 }) := by
  simp only [applyServiceLink, hg, hk]

theorem applyServiceCircuit_circuit {w1 w2 : Word} {x : Circuit} (s : State) (hx : w1.toNat = x.val) :
    applyServiceCircuit w1 w2 s = .result .done (some x) (s.setCircuitService x (decide (32768 ≤ w2.toNat))) := by
  simp only [applyServiceCircuit, circuitArg_circuit hx, serviceDirection_eq]

theorem State.ArbiterOnly.links {s t : State} (h : State.ArbiterOnly s t) : t.links = s.links := by rw [h]

/-- A link table entry after one entry is changed. -/
theorem State.link_modifyLink (s : State) (gk gk' : LineGroup × LinkNo) (f : Link → Link) :
    (s.modifyLink gk f).link gk' = if gk' = gk then f (s.link gk') else s.link gk' := by
  split
  next h => subst h; exact State.link_modifyLink_same s _ f
  next h => exact State.link_modifyLink_ne s gk gk' f h

/-- Settles O40: the link or circuit named takes the direction. -/
theorem serviceOrders : Obligations.ServiceOrders := by
  unfold Obligations.ServiceOrders
  refine ⟨fun s i w1 w2 hs => ⟨fun h => ?_, fun g k hg hk => ?_⟩, fun s i w1 w2 hs => ⟨fun h => ?_, fun x hx => ?_⟩⟩
  · refine exec_order_answered (e := s.orderEntry i 13 (some 0) (some w1) (some w2)) rfl hs rfl
      (applyServiceLink_badArgument _ ?_)
    exact h.imp lineGroupArg_none serviceLinkArg_none
  · obtain ⟨t, ht, harb⟩ := exec_order_answered (c := .serviceLink i w1 w2) (e := s.orderEntry i 13 (some 0) (some w1) (some w2))
      (u := s.modifyLink (g, k) fun l => { l with inService := serviceDirection w2 }) rfl hs rfl
      (applyServiceLink_link _ (lineGroupArg_group hg) (serviceLinkArg_link hk))
    refine ⟨t, ht, ?_, fun gk => ?_⟩
    · rw [harb.links]
      exact harb
    · rw [← serviceDirection_eq, State.link, harb.links]
      exact s.link_modifyLink (g, k) gk fun l => { l with inService := serviceDirection w2 }
  · refine exec_order_answered (e := s.orderEntry i 13 (some 1) (some w1) (some w2)) rfl hs rfl ?_
    change applyServiceCircuit w1 w2 _ = _
    simp only [applyServiceCircuit, circuitArg_none h]
  · exact exec_order_answered (e := s.orderEntry i 13 (some 1) (some w1) (some w2)) rfl hs rfl
      (applyServiceCircuit_circuit _ hx)

/-! ## SET METER (R107, R108) -/

/-- With the high bits in range the value is the two words' number (R107). -/
theorem setMeterValue_eq {w1 w2 : Word} (h : w2.toNat < 16) : setMeterValue w1 w2 = w1.toNat + 65536 * w2.toNat := by
  simp only [setMeterValue, bitField, BitVec.extractLsb'_toNat, Nat.shiftRight_eq_div_pow]
  omega

theorem setMeterHighOk_iff (w : Word) : setMeterHighOk w = true ↔ w.toNat < 16 := by
  simp [setMeterHighOk]

/-- SET METER with an argument out of range (R107). -/
theorem applySetMeter_badArgument {i : OrderSlot} {w0 w1 w2 : Word} (s : State)
    (h : 512 ≤ w0.toNat ∨ 16 ≤ w2.toNat ∨ 999999 < w1.toNat + 65536 * w2.toNat) :
    applySetMeter i w0 w1 w2 s = .result .badArgument none s := by
  unfold applySetMeter
  split
  next l hl =>
    refine if_pos ?_
    by_cases hhigh : w2.toNat < 16
    · have hl' : w0.toNat < 512 := by
        by_contra hge
        rw [lineArg_none (Nat.not_lt.mp hge)] at hl
        cases hl
      have hvalue : 999999 < setMeterValue w1 w2 := by
        rw [setMeterValue_eq hhigh]
        omega
      simp [hvalue]
    · have hbad : setMeterHighOk w2 = false := Bool.eq_false_iff.mpr (mt (setMeterHighOk_iff w2).mp hhigh)
      simp [hbad]
  next => rfl

/-- SET METER with its arguments in range, by its two further checks (R107, R108). -/
theorem applySetMeter_line {i : OrderSlot} {w0 w1 w2 : Word} {l : Line} (s : State) (hl : w0.toNat = l.val) (hhigh : w2.toNat < 16)
    (hvalue : w1.toNat + 65536 * w2.toNat ≤ 999999) :
    applySetMeter i w0 w1 w2 s =
      if (s.line l).cls ≠ .spare then .result .notSpare none s
      else if (s.line l).pulses ≠ 0 then .result .pendingPulses none s
      else .later { s with setMeterJob := some { slot := i, line := l, value := w1.toNat + 65536 * w2.toNat } } := by
  have hok : setMeterHighOk w2 = true := (setMeterHighOk_iff w2).mpr hhigh
  have hnot : ¬ 999999 < w1.toNat + 65536 * w2.toNat := Nat.not_lt.mpr hvalue
  simp only [applySetMeter, lineArg_line hl, setMeterValue_eq hhigh, hok, hnot, Bool.not_true, Bool.false_or, decide_false,
    Bool.false_eq_true, if_false]

/-- Settles O35: the checks in their order, and the job that waits. -/
theorem setMeterChecksAndWaits : Obligations.SetMeterChecksAndWaits := by
  unfold Obligations.SetMeterChecksAndWaits
  intro s i w0 w1 w2 hs
  let e := s.orderEntry i 7 (some w0) (some w1) (some w2)
  refine ⟨fun h => exec_order_answered (e := e) rfl hs rfl (applySetMeter_badArgument _ h), fun l hl hhigh hvalue => ?_⟩
  have hrule := applySetMeter_line (i := i) (s.setSlotState i .inFlight) hl hhigh hvalue
  refine ⟨fun hcls => exec_order_answered (e := e) rfl hs rfl (hrule.trans (if_pos hcls)),
    fun hcls hpulses => exec_order_answered (e := e) rfl hs rfl
      (hrule.trans ((if_neg (not_not.mpr hcls)).trans (if_pos hpulses))), fun hcls hpulses => ?_⟩
  refine ⟨_, (exec_of_entryOf (e := e) rfl).trans (congrArg _ (State.giveOrder_later s _ e hs
    (hrule.trans ((if_neg (not_not.mpr hcls)).trans (if_neg (not_not.mpr hpulses)))))), ?_⟩
  obtain ⟨-, -, -, -, hcycles, -⟩ := hs
  exact (State.askPort_arbiterOnly _ (by exact hcycles)).rebase

/-! ## ADD CREDIT (R116 to R118) -/

theorem State.chargeCaller_line {s : State} {x : Circuit} {l : Line} (h : (s.record x).calling = some l) :
    s.chargeCaller x = s.chargeLine l := by
  simp only [State.chargeCaller, h]

theorem State.chargeSettled_succ (s : State) (x : Circuit) (n : Nat) :
    s.chargeSettled x (n + 1) = (s.chargeCaller x).chargeSettled x n := rfl

/-- Charges to a line found SATURATED at its limit are lost (R94, R117). -/
theorem State.chargeSettled_saturated {s : State} {x : Circuit} {l : Line} (hc : (s.record x).calling = some l)
    (hfull : 65535 ≤ (s.line l).pulses) (hsat : (s.line l).fault = .saturated) (n : Nat) : s.chargeSettled x n = s := by
  induction n with
  | zero => rfl
  | succ n ih => rw [State.chargeSettled_succ, State.chargeCaller_line hc, s.chargeLine_full l hfull, if_pos hsat, ih]

/-- Charges to a line at its limit: it is found SATURATED once (R94, R117). -/
theorem State.chargeSettled_full {s : State} {x : Circuit} {l : Line} {n : Nat} (hc : (s.record x).calling = some l)
    (hfull : 65535 ≤ (s.line l).pulses) :
    s.chargeSettled x (n + 1) =
      if (s.line l).fault = .saturated then s
      else (s.setLine l { s.line l with fault := .saturated }).report (.meterFault l .saturated) := by
  rw [State.chargeSettled_succ, State.chargeCaller_line hc, s.chargeLine_full l hfull]
  split
  next hsat => exact State.chargeSettled_saturated hc hfull hsat n
  next =>
    refine State.chargeSettled_saturated (l := l) ?_ ?_ ?_ n
    · simpa [State.record_setLine] using hc
    · simpa using hfull
    · simp

theorem State.chargeSettled_add (x : Circuit) : ∀ (m n : Nat) (s : State),
    s.chargeSettled x (m + n) = (s.chargeSettled x m).chargeSettled x n
  | 0, n, s => by rw [Nat.zero_add]; rfl
  | m + 1, n, s => by
    rw [Nat.add_right_comm]
    exact State.chargeSettled_add x m n (s.chargeCaller x)

/-- Charges that take the line's count past its limit (R94, R117). -/
theorem State.chargeSettled_overflow {s : State} {x : Circuit} {l : Line} {n : Nat} (hc : (s.record x).calling = some l)
    (hle : (s.line l).pulses ≤ 65535) (hover : 65535 < (s.line l).pulses + n) :
    s.chargeSettled x n =
      if (s.line l).fault = .saturated then s.setLine l { s.line l with pulses := 65535, fault := .saturated }
      else (s.setLine l { s.line l with pulses := 65535, fault := .saturated }).report (.meterFault l .saturated) := by
  obtain ⟨m, k, hm, hn⟩ : ∃ m k, (s.line l).pulses + m = 65535 ∧ n = m + (k + 1) :=
    ⟨65535 - (s.line l).pulses, (s.line l).pulses + n - 65536, by omega, by omega⟩
  rw [hn, State.chargeSettled_add, State.chargeSettled_room x l m s hc (by omega), hm,
    State.chargeSettled_full (l := l) (by simpa [State.record_setLine] using hc) (by simp)]
  simp only [State.line_setLine_same, State.setLine_twice]
  split
  next hsat =>
    congr 1
    rw [← hsat]
  next => rfl

theorem creditClamps_iff (r : CallRecord) (n : Nat) : creditClamps r n = true ↔ 255 < r.credit + (n - min r.owed n) :=
  decide_eq_true_iff (p := Config.creditMax < r.credit + (n - settledCount r.owed n))

section AddCredit

variable {w0 w1 : Word} {x : Circuit} (s : State) (hx : w0.toNat = x.val)

include hx

/-- The checks of ADD CREDIT, in their order (R116). -/
theorem applyAddCredit_refused {code : ResultCode}
    (h : (if w1.toNat < 1 ∨ 255 < w1.toNat then some ResultCode.badArgument
      else if (s.record x).coin = false then some .notCoin
      else if (s.record x).state ≠ .reserved ∧ (s.record x).state ≠ .setting ∧ (s.record x).state ≠ .ringing
          ∧ (s.record x).state ≠ .answered then some .notActive
      else none) = some code) :
    applyAddCredit w0 w1 s = .result code (some x) s := by
  simp only [applyAddCredit, circuitArg_circuit hx]
  split at h
  next hrange => cases h; exact if_pos hrange
  next hrange =>
    rw [if_neg hrange]
    split at h
    next hcoin => cases h; simp [hcoin]
    next hcoin =>
      split at h
      next hstate =>
        cases h
        have hnot : creditableState (s.record x).state = false := by
          obtain ⟨hres, hset, hring, hans⟩ := hstate
          cases hst : (s.record x).state <;> simp_all [creditableState]
        simp [hcoin, hnot]
      next => cases h

/-- ADD CREDIT accepted (R117). -/
theorem applyAddCredit_accepted (hlo : 1 ≤ w1.toNat) (hhi : w1.toNat ≤ 255) (hcoin : (s.record x).coin = true)
    (hstate : (s.record x).state = .reserved ∨ (s.record x).state = .setting ∨ (s.record x).state = .ringing
      ∨ (s.record x).state = .answered) :
    applyAddCredit w0 w1 s =
      .result (if 255 < (s.record x).credit + (w1.toNat - min (s.record x).owed w1.toNat) then .clamped else .done) (some x)
        (s.addCredit x w1.toNat) := by
  have hrange : ¬ (w1.toNat < 1 ∨ 255 < w1.toNat) := by omega
  have hactive : creditableState (s.record x).state = true := by
    rcases hstate with h | h | h | h <;> rw [h] <;> rfl
  simp only [applyAddCredit, circuitArg_circuit hx, if_neg hrange, hcoin, hactive, Bool.not_true, Bool.false_eq_true, if_false,
    creditClamps_iff]

end AddCredit

/-- Settles O33: the checks in their order; accepted, the record takes the credit and the settled pulses are charged. -/
theorem addCreditSettles : Obligations.AddCreditSettles := by
  unfold Obligations.AddCreditSettles
  intro s i w0 w1 hs
  let e := s.orderEntry i 5 (some w0) (some w1) none
  refine ⟨fun h => ?_, fun x hx => ⟨fun code h => ?_, fun l hlo hhi hcoin hstate hcalling hle => ?_⟩⟩
  · refine exec_order_answered (e := e) rfl hs rfl ?_
    change applyAddCredit w0 w1 _ = _
    simp only [applyAddCredit, circuitArg_none h]
  · exact exec_order_answered (e := e) rfl hs rfl (applyAddCredit_refused (s.setSlotState i .inFlight) hx h)
  · intro r settled owed sum code u
    have hrule := applyAddCredit_accepted (s.setSlotState i .inFlight) hx hlo hhi hcoin hstate
    have hadd : (s.setSlotState i .inFlight).addCredit x w1.toNat = (u.setSlotState i .inFlight).chargeSettled x settled := rfl
    have hcall : ((u.setSlotState i .inFlight).record x).calling = some l := by
      have hrec : (u.setSlotState i .inFlight).record x = (s.setRecord x (creditedRecord r w1.toNat)).record x := rfl
      rw [hrec, State.record_setRecord_same]
      exact hcalling
    by_cases hroom : (s.line l).pulses + settled ≤ 65535
    · have hcharge := State.chargeSettled_room x l settled (u.setSlotState i .inFlight) hcall hroom
      obtain ⟨t, ht, harb⟩ := exec_order_answered (c := .addCredit i w0 w1) (e := e)
        (u := { u with lines := s.lines.set l.val { s.line l with pulses := (s.line l).pulses + settled } l.isLt }) rfl hs rfl
        (hrule.trans (by rw [hadd, hcharge]; rfl))
      exact ⟨t, ht, fun _ => harb, fun h => absurd hroom (by omega)⟩
    · let v : State := { u with lines := s.lines.set l.val { s.line l with pulses := 65535, fault := .saturated } l.isLt }
      have hcharge : (u.setSlotState i .inFlight).chargeSettled x settled =
          (if (s.line l).fault = .saturated then v else v.report (.meterFault l .saturated)).setSlotState i .inFlight := by
        refine (State.chargeSettled_overflow hcall hle (Nat.lt_of_not_le hroom)).trans ?_
        have hfault : ((u.setSlotState i .inFlight).line l).fault = (s.line l).fault := rfl
        rw [hfault]
        split
        next => rfl
        next => rw [State.report_eq, State.report_eq]; rfl
      obtain ⟨t, ht, harb⟩ := exec_order_answered (c := .addCredit i w0 w1) (e := e)
        (u := if (s.line l).fault = .saturated then v else v.report (.meterFault l .saturated)) rfl hs
        (by split <;> simp [v, u]) (hrule.trans (by rw [hadd, hcharge]; rfl))
      exact ⟨t, ht, fun h => absurd h hroom, fun _ => harb⟩

end Sys2Proof.Machine
end

section
/-!
PROOF. The hunts of the CONNECT orders (O28, O29): which circuit is chosen, and what the admission of the call leaves.
-/

namespace Sys2Proof.Machine

set_option Elab.async false

/-! ## Reading a state that the arbiter has left -/

section ArbiterReads

variable {s t : State} (h : State.ArbiterOnly s t)

include h

theorem State.ArbiterOnly.record (x : Circuit) : t.record x = s.record x := by rw [h]; rfl
theorem State.ArbiterOnly.line (l : Line) : t.line l = s.line l := by rw [h]; rfl
theorem State.ArbiterOnly.link (gk : LineGroup × LinkNo) : t.link gk = s.link gk := by rw [h]; rfl
theorem State.ArbiterOnly.slot (i : OrderSlot) : t.slot i = s.slot i := by rw [h]; rfl
theorem State.ArbiterOnly.lines : t.lines = s.lines := by rw [h]
theorem State.ArbiterOnly.operateSlots : t.operateSlots = s.operateSlots := by rw [h]
theorem State.ArbiterOnly.waitList : t.waitList = s.waitList := by rw [h]
theorem State.ArbiterOnly.txQueue : t.txQueue = s.txQueue := by rw [h]
theorem State.ArbiterOnly.cordPtr : t.cordPtr = s.cordPtr := by rw [h]
theorem State.ArbiterOnly.groupPtrs : t.groupPtrs = s.groupPtrs := by rw [h]

end ArbiterReads

/-! ## Fresh paths (R3, R4, R53) -/

/-- A path whose make job has not begun: its first crosspoint is unmade and stands on it once. -/
def freshPath : Path → Prop
  | q :: rest => q.mark = .unmade ∧ ∀ p ∈ rest, p.xp ≠ q.xp
  | [] => False

theorem nextUnmade_fresh {q : PathPoint} {rest : Path} (h : freshPath (q :: rest)) : nextUnmade (q :: rest) = some q.xp := by
  obtain ⟨hmark, -⟩ := h
  simp [nextUnmade, hmark]

theorem markPath_fresh {q : PathPoint} {rest : Path} (h : freshPath (q :: rest)) :
    markPath (q :: rest) q.xp .inFlight = firstInFlight (q :: rest) := by
  obtain ⟨-, hrest⟩ := h
  have hmap : markPath rest q.xp .inFlight = rest := by
    refine (List.map_congr_left fun p hp => ?_).trans (List.map_id rest)
    exact if_neg (hrest p hp)
  simpa [markPath, firstInFlight] using hmap

theorem freshPath_local (c : Cord) (a b : Line) : freshPath (localPath c a b) := by
  refine ⟨rfl, fun p hp => ?_⟩
  have hne := cord_switches_ne c
  simp only [List.map_cons, List.map_nil, List.mem_cons, List.not_mem_nil, or_false] at hp
  rcases hp with rfl | rfl | rfl
  · exact Crosspoint.noConfusion
  · exact fun h => hne (Crosspoint.a.inj h).2.2.symm
  · exact Crosspoint.noConfusion

theorem freshPath_outgoing (x : Circuit) (l : Line) : freshPath (outgoingPath x l) := by
  refine ⟨rfl, fun p hp => ?_⟩
  simp only [List.map_cons, List.map_nil, List.mem_singleton] at hp
  subst hp
  exact Crosspoint.noConfusion

theorem freshPath_incoming (x : Circuit) (l : Line) : freshPath (incomingPath x l) := by
  refine ⟨rfl, fun p hp => ?_⟩
  simp only [List.map_cons, List.map_nil, List.mem_singleton] at hp
  subst hp
  exact Crosspoint.noConfusion

/-- A make job on a fresh path starts with its first crosspoint (R53, R56). -/
theorem State.startMakeJob_fresh {s : State} {x : Circuit} (h : freshPath (s.record x).path) :
    s.startMakeJob x =
      { s with
        records := s.records.set x.val
          { s.record x with state := .setting, path := firstInFlight (s.record x).path } x.isLt,
        txQueue := s.txQueue ++ firstMake x (s.record x).path } := by
  cases hp : (s.record x).path with
  | nil => rw [hp] at h; exact h.elim
  | cons q rest =>
    rw [hp] at h
    rw [State.startMakeJob_some s x q.xp (by rw [hp]; exact nextUnmade_fresh h), hp, markPath_fresh h]
    rfl

/-! ## The lines of a call (R26) -/

theorem State.setBusy_line (s : State) (o : Option Line) (b : Option Circuit) (l : Line) :
    (s.setBusy o b).line l = if some l = o then { s.line l with busy := b } else s.line l := by
  rcases o with _ | m
  · simp
  · by_cases h : l = m
    · subst h; simp
    · simp [h, State.line_setLine_ne]

theorem State.setBusy_eq (s : State) (o : Option Line) (b : Option Circuit) :
    s.setBusy o b = { s with lines := (s.setBusy o b).lines } := by
  cases o <;> rfl

/-- A change that may be made for two reasons, and once made stays as it is. -/
theorem ite_ite_or {α : Type} {p q : Prop} [Decidable p] [Decidable q] {a : α} (f : α → α) (hf : f (f a) = f a) :
    (if q then f (if p then f a else a) else if p then f a else a) = if p ∨ q then f a else a := by
  by_cases hp : p <;> by_cases hq : q <;> simp [hp, hq, hf]

/-- `s` after circuit `x` has taken a record and made its lines busy (R26, R31). -/
def State.takeCall (s : State) (x : Circuit) (r : CallRecord) : State :=
  ((s.setRecord x r).setBusy r.calling (some x)).setBusy (calledLine r.called) (some x)

theorem State.takeCall_eq (s : State) (x : Circuit) (r : CallRecord) :
    s.takeCall x r = { s with records := s.records.set x.val r x.isLt, lines := (s.takeCall x r).lines } := by
  rw [State.takeCall, State.setBusy_eq, State.setBusy_eq]
  rfl

theorem State.takeCall_line (s : State) (x : Circuit) (r : CallRecord) (l : Line) :
    (s.takeCall x r).line l =
      if some l = r.calling ∨ some l = calledLine r.called then { s.line l with busy := some x } else s.line l := by
  have hrec : (s.setRecord x r).line l = s.line l := rfl
  rw [State.takeCall, State.setBusy_line, State.setBusy_line, hrec]
  exact ite_ite_or (fun e : LineEntry => { e with busy := some x }) rfl

/-! ## Joining the wait list (R52, R53) -/

theorem State.freeOperateSlots_nil {s : State} (h : ∀ i : Fin 4, s.operateSlots[i] ≠ none) : s.freeOperateSlots = [] := by
  simp only [State.freeOperateSlots, List.filter_eq_nil_iff, decide_eq_true_eq]
  exact fun i _ => h i

theorem State.freeOperateSlots_cons {s : State} (h : ∃ i : Fin 4, s.operateSlots[i] = none) :
    ∃ i free, s.freeOperateSlots = i :: free ∧ s.operateSlots[i] = none := by
  obtain ⟨j, hj⟩ := h
  have hmem : j ∈ s.freeOperateSlots := by simpa [State.freeOperateSlots] using hj
  cases hfree : s.freeOperateSlots with
  | nil => rw [hfree] at hmem; cases hmem
  | cons i free =>
    have hi : i ∈ s.freeOperateSlots := by simp [hfree]
    exact ⟨i, free, rfl, by simpa [State.freeOperateSlots] using hi⟩

/-- With no operate slot free a record waits at the tail of the wait list (R52). -/
theorem State.joinWaitList_waits {s : State} (x : Circuit) (h : ∀ i : Fin 4, s.operateSlots[i] ≠ none) :
    s.joinWaitList x = { s with waitList := s.waitList ++ [x] } := by
  have hfree := State.freeOperateSlots_nil (s := { s with waitList := s.waitList ++ [x] }) h
  simp only [State.joinWaitList, State.grantSlot, hfree]

/-- With an operate slot free and nobody waiting a record is granted at once (R53). -/
theorem State.joinWaitList_granted {s : State} {x : Circuit} (hw : s.waitList = []) (h : ∃ i : Fin 4, s.operateSlots[i] = none)
    (hp : freshPath (s.record x).path) :
    ∃ i : Fin 4, s.operateSlots[i] = none ∧
      s.joinWaitList x =
        { s with
          operateSlots := s.operateSlots.set i.val (some x) i.isLt,
          records := s.records.set x.val
            { s.record x with state := .setting, path := firstInFlight (s.record x).path } x.isLt,
          txQueue := s.txQueue ++ firstMake x (s.record x).path } := by
  obtain ⟨i, free, hfree, hi⟩ := State.freeOperateSlots_cons (s := { s with waitList := s.waitList ++ [x] }) h
  refine ⟨i, hi, ?_⟩
  refine (State.grantSlot_head _ i free x [] hfree (by simp [hw])).trans ((State.startMakeJob_fresh (by exact hp)).trans ?_)
  rw [← hw]
  rfl

/-- Starting a make job changes the records and the transmit queue alone. -/
theorem State.startMakeJob_frame (s : State) (x : Circuit) :
    s.startMakeJob x = { s with records := (s.startMakeJob x).records, txQueue := (s.startMakeJob x).txQueue } := by
  unfold State.startMakeJob
  simp only
  split <;> rfl

/-- A grant of an operate slot changes the slots, the wait list, the records and the transmit queue alone. -/
theorem State.grantSlot_frame (s : State) :
    s.grantSlot =
      { s with operateSlots := s.grantSlot.operateSlots, waitList := s.grantSlot.waitList, records := s.grantSlot.records,
               txQueue := s.grantSlot.txQueue } := by
  unfold State.grantSlot
  split
  next => rw [State.startMakeJob_frame]; rfl
  next => rfl
  next => rfl

theorem State.joinWaitList_frame (s : State) (x : Circuit) :
    s.joinWaitList x =
      { s with operateSlots := (s.joinWaitList x).operateSlots, waitList := (s.joinWaitList x).waitList,
               records := (s.joinWaitList x).records, txQueue := (s.joinWaitList x).txQueue } := by
  rw [State.joinWaitList, State.grantSlot_frame]

/-! ## Admission (R31) -/

/-- `s` with the hunt pointers moved, and the call of circuit `x` holding its links and lines (R19, R26, R31). -/
def State.callTaken (s : State) (cp : Cord) (gp : Vector (Fin 8) 3) (x : Circuit) (r : CallRecord) : State :=
  (({ s with cordPtr := cp, groupPtrs := gp } : State).holdLinks x r.path).takeCall x r

section CallTaken

variable (s : State) (cp : Cord) (gp : Vector (Fin 8) 3) (x : Circuit) (r : CallRecord)

theorem State.callTaken_eq :
    s.callTaken cp gp x r =
      { s with
        cordPtr := cp, groupPtrs := gp, records := s.records.set x.val r x.isLt, lines := (s.callTaken cp gp x r).lines,
        links := (s.callTaken cp gp x r).links } := by
  rw [State.callTaken, State.takeCall_eq, State.holdLinks_eq]

theorem State.callTaken_record (y : Circuit) : (s.callTaken cp gp x r).record y = if y = x then r else s.record y := by
  rw [State.callTaken_eq]
  exact s.record_set x y r

theorem State.callTaken_line (l : Line) :
    (s.callTaken cp gp x r).line l =
      if some l = r.calling ∨ some l = calledLine r.called then { s.line l with busy := some x } else s.line l := by
  rw [State.callTaken, State.takeCall_line, State.holdLinks_eq]
  rfl

theorem State.callTaken_link (gk : LineGroup × LinkNo) :
    (s.callTaken cp gp x r).link gk =
      if gk ∈ r.path.map (fun q => crosspointLink q.xp) then { s.link gk with holder := some x } else s.link gk := by
  rw [State.callTaken, State.takeCall_eq]
  exact State.holdLinks_link x gk r.path _

end CallTaken

/-- `s` with an order's slot IN FLIGHT and a call taken for it (R31). -/
def State.huntTaken (s : State) (i : OrderSlot) (cp : Cord) (gp : Vector (Fin 8) 3) (x : Circuit) (r : CallRecord) : State :=
  (s.setSlotState i .inFlight).callTaken cp gp x r

section HuntTaken

variable (s : State) (i : OrderSlot) (cp : Cord) (gp : Vector (Fin 8) 3) (x : Circuit) (r : CallRecord)

theorem State.huntTaken_eq :
    s.huntTaken i cp gp x r =
      { s with
        cordPtr := cp, groupPtrs := gp, records := s.records.set x.val r x.isLt, slots := (s.setSlotState i .inFlight).slots,
        lines := (s.huntTaken i cp gp x r).lines, links := (s.huntTaken i cp gp x r).links } := by
  rw [State.huntTaken, State.callTaken_eq]
  rfl

theorem State.huntTaken_record (y : Circuit) : (s.huntTaken i cp gp x r).record y = if y = x then r else s.record y :=
  State.callTaken_record (s.setSlotState i .inFlight) cp gp x r y

theorem State.huntTaken_line (l : Line) :
    (s.huntTaken i cp gp x r).line l =
      if some l = r.calling ∨ some l = calledLine r.called then { s.line l with busy := some x } else s.line l :=
  State.callTaken_line (s.setSlotState i .inFlight) cp gp x r l

theorem State.huntTaken_link (gk : LineGroup × LinkNo) :
    (s.huntTaken i cp gp x r).link gk =
      if gk ∈ r.path.map (fun q => crosspointLink q.xp) then { s.link gk with holder := some x } else s.link gk :=
  State.callTaken_link (s.setSlotState i .inFlight) cp gp x r gk

theorem State.huntTaken_slot (j : OrderSlot) :
    (s.huntTaken i cp gp x r).slot j = if j = i then { s.slot j with state := .inFlight } else s.slot j := by
  rw [State.huntTaken_eq]
  split
  next h => subst h; exact State.slot_modifySlot_same s j fun e => { e with state := .inFlight }
  next h => exact State.slot_modifySlot_ne s i j (fun e => { e with state := .inFlight }) h

/-- What an admission leaves, granted an operate slot or waiting for one. -/
theorem State.huntTaken_admitted (hp : freshPath r.path) {t : State}
    (ht : State.ArbiterOnly ((s.huntTaken i cp gp x r).joinWaitList x) t) : s.CallAdmitted t i x r := by
  generalize hv : s.huntTaken i cp gp x r = v at ht
  have hvrec : v.record x = r := by rw [← hv, State.huntTaken_record, if_pos rfl]
  have hvops : v.operateSlots = s.operateSlots := by rw [← hv, State.huntTaken_eq]
  have hvwait : v.waitList = s.waitList := by rw [← hv, State.huntTaken_eq]
  have hvtx : v.txQueue = s.txQueue := by rw [← hv, State.huntTaken_eq]
  have hframe := v.joinWaitList_frame x
  generalize hu : v.joinWaitList x = u at ht hframe
  have hline : ∀ l, u.line l = v.line l := fun l => by rw [hframe]; rfl
  have hlink : ∀ gk, u.link gk = v.link gk := fun gk => by rw [hframe]; rfl
  have hslot : ∀ j, u.slot j = v.slot j := fun j => by rw [hframe]; rfl
  exact {
    granted := fun hw hfree => by
      obtain ⟨n, hn, hjoin⟩ := State.joinWaitList_granted (s := v) (x := x) (by rw [hvwait, hw]) (by rw [hvops]; exact hfree)
        (by rw [hvrec]; exact hp)
      rw [hu, hvrec] at hjoin
      rw [hvops] at hn
      refine ⟨?_, ?_, ?_, n, hn, ?_, fun j hj => ?_⟩
      · rw [ht.record, hjoin]
        exact (v.record_set x x _).trans (if_pos rfl)
      · rw [ht.waitList, hjoin]
        exact hvwait.trans hw
      · rw [ht.txQueue, hjoin, ← hvtx]
      · rw [ht.operateSlots, hjoin]
        exact Vector.getElem_set_self n.isLt
      · rw [ht.operateSlots, hjoin, ← hvops]
        exact Vector.getElem_set_ne n.isLt j.isLt fun h => hj (Fin.ext h.symm)
    waits := fun hfull => by
      have hjoin := State.joinWaitList_waits (s := v) x (by rw [hvops]; exact hfull)
      rw [hu] at hjoin
      refine ⟨?_, ?_, ?_, ?_⟩
      · rw [ht.record, hjoin]
        exact hvrec
      · rw [ht.waitList, hjoin, ← hvwait]
      · rw [ht.txQueue, hjoin, ← hvtx]
      · rw [ht.operateSlots, hjoin, ← hvops]
    others := fun hor y hy => by
      have hvy : v.record y = s.record y := by rw [← hv, State.huntTaken_record, if_neg hy]
      rw [ht.record, ← hvy]
      by_cases hfull : ∀ j : Fin 4, s.operateSlots[j] ≠ none
      · rw [← hu, State.joinWaitList_waits (s := v) x (by rw [hvops]; exact hfull)]
        rfl
      · obtain ⟨n, -, hjoin⟩ := State.joinWaitList_granted (s := v) (x := x) (by rw [hvwait]; exact hor.resolve_right hfull)
          (by rw [hvops]; simpa using hfull) (by rw [hvrec]; exact hp)
        rw [← hu, hjoin]
        exact (v.record_set x y _).trans (if_neg hy)
    lines := fun l => by rw [ht.line, hline, ← hv, State.huntTaken_line]
    links := fun gk => by rw [ht.link, hlink, ← hv, State.huntTaken_link]
    slots := fun j => by rw [ht.slot, hslot, ← hv, State.huntTaken_slot]
    rest := by
      rw [ht.records, ht.lines, ht.links, ht.slots, ht.cordPtr, ht.groupPtrs, ht.operateSlots, ht.waitList, ht.txQueue]
      refine State.ArbiterOnly.trans (t := u) ?_ ht
      rw [hframe, ← hv, State.huntTaken_eq]
      rfl }

end HuntTaken

/-- What a connect that is admitted leaves, from what its rule makes of the state whose slot is IN FLIGHT (R31, R148). -/
theorem exec_connect_admitted {s : State} {c : Instr} {e : OrderEntry} {cp : Cord} {gp : Vector (Fin 8) 3} {x : Circuit}
    {r : CallRecord} (he : s.entryOf c = some e) (hs : s.OrderFree e.slot) (hp : freshPath r.path)
    (hr : applyOrder e (s.setSlotState e.slot .inFlight) = .admitted ((s.huntTaken e.slot cp gp x r).joinWaitList x)) :
    ∃ t, exec c s = .next t ∧ t.cordPtr = cp ∧ t.groupPtrs = gp ∧ s.CallAdmitted t e.slot x r := by
  have hframe : (s.huntTaken e.slot cp gp x r).joinWaitList x =
      { s with
        cordPtr := cp, groupPtrs := gp, slots := (s.setSlotState e.slot .inFlight).slots,
        records := ((s.huntTaken e.slot cp gp x r).joinWaitList x).records,
        lines := (s.huntTaken e.slot cp gp x r).lines, links := (s.huntTaken e.slot cp gp x r).links,
        operateSlots := ((s.huntTaken e.slot cp gp x r).joinWaitList x).operateSlots,
        waitList := ((s.huntTaken e.slot cp gp x r).joinWaitList x).waitList,
        txQueue := ((s.huntTaken e.slot cp gp x r).joinWaitList x).txQueue } := by
    rw [State.joinWaitList_frame, State.huntTaken_eq]
  have hfree := hs
  obtain ⟨-, -, hqueue, -, hcycles, -⟩ := hs
  generalize hu : (s.huntTaken e.slot cp gp x r).joinWaitList x = u at hr hframe
  have harb : State.ArbiterOnly u u.askPort := State.askPort_arbiterOnly u (by rw [hframe]; exact hcycles)
  refine ⟨_, (exec_of_entryOf he).trans (by rw [State.giveOrder_admitted s u e hfree hr (by rw [hframe]; exact hqueue)]), ?_, ?_,
    State.huntTaken_admitted s e.slot cp gp x r hp (by rw [hu]; exact harb)⟩
  · rw [harb.cordPtr, hframe]
  · rw [harb.groupPtrs, hframe]

/-! ## CONNECT LOCAL past its checks (R16, R28) -/

theorem Bool.eq_false_of_iff {b : Bool} {p : Prop} (h : b = true ↔ p) (hp : ¬ p) : b = false := by
  rw [← Bool.not_eq_true, h]
  exact hp

section ConnectLocal

variable {s : State} {i : OrderSlot} {a b : Line} {w0 w1 : Word} (ha : w0.toNat = a.val) (hb : w1.toNat = b.val) (hab : a ≠ b)
  (hchecks : s.localRefusal a b = none)

include ha hb hab hchecks

/-- CONNECT LOCAL takes the cord that its hunt chooses (R16, R19, R31). -/
theorem applyConnectLocal_admitted {c : Cord} (hc : s.localChoice noExclusion a b = some c) :
    applyConnectLocal i w0 w1 (s.setSlotState i .inFlight) =
      .admitted ((s.huntTaken i (c + 1) s.groupPtrs (cordCircuit c)
        (admittedRecord i (some a) (.line b) 0 (s.line a).cls (classTicketed (s.line a).cls)
          (localPath c a b))).joinWaitList (cordCircuit c)) := by
  have hc' : (s.setSlotState i .inFlight).localChoice noExclusion a b = some c := hc
  have hchecks' : (s.setSlotState i .inFlight).localRefusal a b = none := hchecks
  simp only [applyConnectLocal, lineArg_line ha, lineArg_line hb, if_neg hab, hchecks', State.localHunt, hc']
  rfl

theorem applyConnectLocal_congestion (hc : s.localChoice noExclusion a b = none) :
    applyConnectLocal i w0 w1 (s.setSlotState i .inFlight) = .result .congestion none (s.setSlotState i .inFlight) := by
  have hc' : (s.setSlotState i .inFlight).localChoice noExclusion a b = none := hc
  have hchecks' : (s.setSlotState i .inFlight).localRefusal a b = none := hchecks
  simp only [applyConnectLocal, lineArg_line ha, lineArg_line hb, if_neg hab, hchecks', State.localHunt, hc']

end ConnectLocal

/-- Settles O28: the hunt finds the first suitable cord, on which the call is admitted. -/
theorem connectLocalHunts : Obligations.ConnectLocalHunts := by
  unfold Obligations.ConnectLocalHunts
  intro s i a b w0 w1 hs hab ha hb hspare hbarred hbusy hspare' hbusy' hroom
  have hchecks : s.localRefusal a b = none := by
    rw [State.localRefusal_eq, if_neg hspare, if_neg hbarred, if_neg (not_not.mpr hbusy), if_neg hspare', if_neg (not_not.mpr hbusy'),
      if_neg fun h => Nat.not_le.mpr (hroom h.1) h.2]
  have he : s.entryOf (.connectLocal i w0 w1) = some (s.orderEntry i 1 (some w0) (some w1) none) := rfl
  refine ⟨fun n hn hfirst => ?_, fun hnone => ?_⟩
  · have hchoice : s.localChoice noExclusion a b = some (s.cordPtr + n) :=
      find_from (fun m => s.cordPtr + m) (fun c => s.suitable noExclusion (cordCircuit c) (localPath c a b)) n
        ((s.localSuitable_iff _ a b).mpr hn) fun m hm => Bool.eq_false_of_iff (s.localSuitable_iff _ a b) (hfirst m hm)
    have hticket : classTicketed (s.line a).cls = decide ((s.line a).cls = .coin ∨ (s.line a).cls = .detailed) := by
      rw [Bool.eq_iff_iff, classTicketed_iff, decide_eq_true_iff]
    rw [← hticket]
    exact exec_connect_admitted he hs (freshPath_local _ a b) (applyConnectLocal_admitted ha hb hab hchecks hchoice)
  · refine exec_order_answered he hs rfl (applyConnectLocal_congestion ha hb hab hchecks ?_)
    exact find_from_none (fun m => s.cordPtr + m) (fun c => s.suitable noExclusion (cordCircuit c) (localPath c a b))
      fun m => Bool.eq_false_of_iff (s.localSuitable_iff _ a b) (hnone _)

/-! ## CONNECT OUTGOING and CONNECT INCOMING past their checks (R17, R18, R29, R30) -/

section ConnectOutgoing

variable {s : State} {i : OrderSlot} {a : Line} {g : JunctionGroup} {d : DistBand} {w0 w1 w2 : Word} (ha : w0.toNat = a.val)
  (hg : w1.toNat = g.val) (hd : w2.toNat = d.val) (hd0 : d ≠ 0) (hchecks : s.outgoingRefusal a = none)

include ha hg hd hd0 hchecks

/-- CONNECT OUTGOING takes the junction that its hunt chooses (R17, R19, R31). -/
theorem applyConnectOutgoing_admitted {q : Fin 8} (hq : s.outgoingChoice noExclusion a g = some q) :
    applyConnectOutgoing i w0 w1 w2 (s.setSlotState i .inFlight) =
      .admitted ((s.huntTaken i s.cordPtr (s.groupPtrs.set g.val (q + 1) g.isLt) (groupCircuit g q)
        (admittedRecord i (some a) (.junction (junctionOf (groupCircuit g q))) d (s.line a).cls true
          (outgoingPath (groupCircuit g q) a))).joinWaitList (groupCircuit g q)) := by
  have hq' : (s.setSlotState i .inFlight).outgoingChoice noExclusion a g = some q := hq
  have hchecks' : (s.setSlotState i .inFlight).outgoingRefusal a = none := hchecks
  simp only [applyConnectOutgoing, lineArg_line ha, groupArg_group hg, outgoingDistArg_dist hd hd0, hchecks', State.outgoingHunt, hq']
  rfl

theorem applyConnectOutgoing_congestion (hq : s.outgoingChoice noExclusion a g = none) :
    applyConnectOutgoing i w0 w1 w2 (s.setSlotState i .inFlight) = .result .congestion none (s.setSlotState i .inFlight) := by
  have hq' : (s.setSlotState i .inFlight).outgoingChoice noExclusion a g = none := hq
  have hchecks' : (s.setSlotState i .inFlight).outgoingRefusal a = none := hchecks
  simp only [applyConnectOutgoing, lineArg_line ha, groupArg_group hg, outgoingDistArg_dist hd hd0, hchecks', State.outgoingHunt, hq']

end ConnectOutgoing

section ConnectIncoming

variable {s : State} {i : OrderSlot} {x : Circuit} {b : Line} {w0 w1 : Word} (hx : w0.toNat = x.val) (hb : w1.toNat = b.val)
  (hin : 48 ≤ x.val) (hseized : (s.record x).state = .seized) (hchecks : s.calledRefusal b = none)

include hx hb hin hseized hchecks

/-- CONNECT INCOMING takes its own circuit (R18, R19, R31). -/
theorem applyConnectIncoming_admitted (h : s.incomingSuitable x b) :
    applyConnectIncoming i w0 w1 (s.setSlotState i .inFlight) =
      .admitted ((s.huntTaken i s.cordPtr s.groupPtrs x
        (admittedRecord i none (.line b) 0 .ordinary false (incomingPath x b))).joinWaitList x) := by
  have husable : (s.setSlotState i .inFlight).pathUsable noExclusion x (incomingPath x b) = true :=
    (s.incomingSuitable_iff x b).mpr h
  have hseized' : ((s.setSlotState i .inFlight).record x).state = .seized := hseized
  have hchecks' : (s.setSlotState i .inFlight).calledRefusal b = none := hchecks
  simp only [applyConnectIncoming, circuitArg_circuit hx, lineArg_line hb, circuitKind_incoming hin, hseized', ne_eq,
    not_true_eq_false, if_false, hchecks', State.incomingHunt, husable, if_true]
  rfl

theorem applyConnectIncoming_congestion (h : ¬ s.incomingSuitable x b) :
    applyConnectIncoming i w0 w1 (s.setSlotState i .inFlight) = .result .congestion (some x) (s.setSlotState i .inFlight) := by
  have husable : (s.setSlotState i .inFlight).pathUsable noExclusion x (incomingPath x b) = false :=
    Bool.eq_false_of_iff (s.incomingSuitable_iff x b) h
  have hseized' : ((s.setSlotState i .inFlight).record x).state = .seized := hseized
  have hchecks' : (s.setSlotState i .inFlight).calledRefusal b = none := hchecks
  simp only [applyConnectIncoming, circuitArg_circuit hx, lineArg_line hb, circuitKind_incoming hin, hseized', ne_eq,
    not_true_eq_false, if_false, hchecks', State.incomingHunt, husable, Bool.false_eq_true]

end ConnectIncoming

theorem groupPtrs_set (gp : Vector (Fin 8) 3) (g h : JunctionGroup) (q : Fin 8) :
    (gp.set g.val q g.isLt)[h] = if h = g then q else gp[h] := by
  by_cases hh : h = g
  · subst hh
    rw [if_pos rfl]
    exact Vector.getElem_set_self h.isLt
  · rw [if_neg hh]
    exact Vector.getElem_set_ne g.isLt h.isLt fun heq => hh (Fin.ext heq.symm)

theorem junctionOf_groupCircuit (g : JunctionGroup) (q : Fin 8) : (junctionOf (groupCircuit g q)).val = (groupCircuit g q).val - 24 := by
  simp only [junctionOf, groupCircuit]
  omega

/-- Settles O29: the outgoing hunt finds the first suitable junction, the incoming one examines its own circuit alone. -/
theorem connectJunctionHunts : Obligations.ConnectJunctionHunts := by
  unfold Obligations.ConnectJunctionHunts
  refine ⟨fun s i a g d w0 w1 w2 hs ha hg hd hd0 hspare hbarred hbusy hroom => ?_,
    fun s i x b w0 w1 hs hx hb hin hseized hspare hbusy => ?_⟩
  · have hchecks : s.outgoingRefusal a = none := by
      rw [State.outgoingRefusal_eq, if_neg hspare, if_neg hbarred, if_neg (not_not.mpr hbusy), if_neg (Nat.not_le.mpr hroom)]
    have he : s.entryOf (.connectOutgoing i w0 w1 w2) = some (s.orderEntry i 2 (some w0) (some w1) (some w2)) := rfl
    let test := fun q => s.suitable noExclusion (groupCircuit g q) (outgoingPath (groupCircuit g q) a)
    refine ⟨fun n hn hfirst => ?_, fun hnone => ?_⟩
    · have hchoice : s.outgoingChoice noExclusion a g = some (s.groupPtrs[g] + n) :=
        find_from (fun m => s.groupPtrs[g] + m) test n ((s.outgoingSuitable_iff a g _).mpr hn)
          fun m hm => Bool.eq_false_of_iff (s.outgoingSuitable_iff a g _) (hfirst m hm)
      obtain ⟨t, ht, hcp, hgp, hadmitted⟩ := exec_connect_admitted he hs (freshPath_outgoing _ a)
        (applyConnectOutgoing_admitted ha hg hd hd0 hchecks hchoice)
      refine ⟨t, _, _, ht, rfl, junctionOf_groupCircuit g _, hcp, fun h => ?_, hadmitted⟩
      rw [hgp]
      exact groupPtrs_set _ g h _
    · refine exec_order_answered he hs rfl (applyConnectOutgoing_congestion ha hg hd hd0 hchecks ?_)
      exact find_from_none (fun m => s.groupPtrs[g] + m) test
        fun m => Bool.eq_false_of_iff (s.outgoingSuitable_iff a g _) (hnone _)
  · have hchecks : s.calledRefusal b = none := by
      rw [State.calledRefusal_eq, if_neg hspare, if_neg (not_not.mpr hbusy)]
    have he : s.entryOf (.connectIncoming i w0 w1) = some (s.orderEntry i 3 (some w0) (some w1) none) := rfl
    refine ⟨fun h => ?_, fun h => ?_⟩
    · exact exec_connect_admitted he hs (freshPath_incoming x b) (applyConnectIncoming_admitted hx hb hin hseized hchecks h)
    · exact exec_order_answered he hs rfl (applyConnectIncoming_congestion hx hb hin hseized hchecks h)

end Sys2Proof.Machine
end

section
/-!
PROOF. RELEASE of a record that is RESERVED (O31) or SETTING (O32): what the freed lines, links and operate slot leave.
-/

namespace Sys2Proof.Machine

set_option Elab.async false

/-! ## RELEASE of a RESERVED record (R7, R34) -/

/-- The lines freed depend on the record and the lines alone. -/
theorem State.freeLines_congr {s t : State} {x : Circuit} (hr : t.record x = s.record x) (hl : t.lines = s.lines) :
    (t.freeLines x).lines = (s.freeLines x).lines := by
  unfold State.freeLines
  rw [hr]
  cases (s.record x).calling <;> cases calledLine (s.record x).called <;>
    simp [State.setBusy, State.modifyLine, State.setLine, State.line, hl]

/-- `s` after a RESERVED record has been released, before any report (R34). -/
def State.reservedFreed (s : State) (x : Circuit) (st : CallState) : State :=
  { s with
    records := s.records.set x.val (CallRecord.blank st) x.isLt, lines := (s.freeLines x).lines,
    links := (s.releaseRequest x).links, waitList := s.waitList.filter fun y => y ≠ x,
    results := s.results ++ connectResult x (s.record x) .released }

theorem State.releaseReserved_eq (s : State) (x : Circuit) :
    s.releaseReserved x =
      if circuitKind x = .incoming then
        if s.fPresent x = true then (s.reservedFreed x .seized).report (.seize x) else (s.reservedFreed x .free).report (.abandon x)
      else s.reservedFreed x .free := by
  have hlines : (({ s with waitList := s.waitList.filter fun y => y ≠ x }.releaseRequest x).freeLines x).lines = (s.freeLines x).lines :=
    State.freeLines_congr rfl rfl
  have hfreed : ((({ s with waitList := s.waitList.filter fun y => y ≠ x }.releaseRequest x).freeLines x).handConnectResult x
      .released).enterFree x = s.reservedFreed x .free := by
    rw [State.handConnectResult_eq, State.freeLines_eq, hlines]
    simp only [State.enterFree, State.setRecord, Vector.set_set]
    rfl
  have hseized : (s.reservedFreed x .free).seize x = (s.reservedFreed x .seized).report (.seize x) := by
    simp [State.seize, State.reservedFreed, State.setRecord, State.record, CallRecord.blank]
  simp only [State.releaseReserved, hfreed, hseized]
  rfl

theorem State.reservedFreed_setSlotState (s : State) (i : OrderSlot) (st : SlotState) (x : Circuit) (c : CallState) :
    (s.setSlotState i st).reservedFreed x c = (s.reservedFreed x c).setSlotState i st := by
  have hlines : ((s.setSlotState i st).freeLines x).lines = (s.freeLines x).lines := State.freeLines_congr rfl rfl
  rw [State.reservedFreed, hlines]
  rfl

theorem State.report_setSlotState (s : State) (i : OrderSlot) (st : SlotState) (r : Report) :
    (s.setSlotState i st).report r = (s.report r).setSlotState i st := by
  rw [State.report_eq, State.report_eq]
  rfl

theorem State.releaseReserved_setSlotState (s : State) (i : OrderSlot) (st : SlotState) (x : Circuit) :
    (s.setSlotState i st).releaseReserved x = (s.releaseReserved x).setSlotState i st := by
  rw [State.releaseReserved_eq, State.releaseReserved_eq, State.reservedFreed_setSlotState, State.reservedFreed_setSlotState,
    State.report_setSlotState, State.report_setSlotState]
  have hf : (s.setSlotState i st).fPresent x = s.fPresent x := rfl
  rw [hf]
  split_ifs <;> rfl

theorem circuitKind_incoming_iff (x : Circuit) : circuitKind x = .incoming ↔ 48 ≤ x.val := by
  unfold circuitKind
  split_ifs <;> simp <;> omega

/-- The state in which the release of a RESERVED record leaves it (R34). -/
def State.releasedState (s : State) (x : Circuit) : CallState := if 48 ≤ x.val ∧ s.fPresent x = true then .seized else .free

theorem State.releaseReserved_cases (s : State) (x : Circuit) :
    s.releaseReserved x =
      if x.val < 48 then s.reservedFreed x (s.releasedState x)
      else if s.fPresent x = true then (s.reservedFreed x (s.releasedState x)).report (.seize x)
      else (s.reservedFreed x (s.releasedState x)).report (.abandon x) := by
  rw [State.releaseReserved_eq]
  simp only [circuitKind_incoming_iff, State.releasedState]
  by_cases hx : x.val < 48
  · have hx' : ¬ 48 ≤ x.val := Nat.not_le.mpr hx
    simp only [if_pos hx, hx', false_and, if_false]
  · have hx' : 48 ≤ x.val := Nat.not_lt.mp hx
    by_cases hf : s.fPresent x = true <;> simp [hx, hx', hf]

/-- The release of a RESERVED record differs from its freeing in the reports alone. -/
theorem State.releaseReserved_frame (s : State) (x : Circuit) :
    s.releaseReserved x =
      { s.reservedFreed x (s.releasedState x) with
        reports := (s.releaseReserved x).reports, reportsLost := (s.releaseReserved x).reportsLost } := by
  rw [State.releaseReserved_cases, State.report_eq, State.report_eq]
  split_ifs <;> rfl

/-- Settles O31: the record's links, lines and place in the wait list are freed before its reports. -/
theorem releaseReservedFrees : Obligations.ReleaseReservedFrees := by
  unfold Obligations.ReleaseReservedFrees
  intro s i w x hs hx hstate
  have hframe := s.releaseReserved_frame x
  have happly : applyRelease w (s.setSlotState i .inFlight) =
      .result .done (some x) ((s.releaseReserved x).setSlotState i .inFlight) := by
    have hstate' : ((s.setSlotState i .inFlight).record x).state = .reserved := hstate
    simp only [applyRelease, circuitArg_circuit hx, hstate', State.releaseReserved_setSlotState]
  obtain ⟨t, ht, harb⟩ := exec_order_answered (c := .release i w) (e := s.orderEntry i 4 (some w) none none)
    (u := s.releaseReserved x) rfl hs (by rw [hframe]; rfl) happly
  have hrecords : t.records = (s.reservedFreed x (s.releasedState x)).records := by rw [harb.records, State.answered, hframe]
  have hlines : t.lines = (s.freeLines x).lines := by rw [harb.lines, State.answered, hframe]; rfl
  have hlinks : t.links = (s.releaseRequest x).links := by rw [harb.links, State.answered, hframe]; rfl
  refine ⟨t, ht, fun y => ?_, fun l => ?_, fun gk => ?_, ?_⟩
  · rw [State.record, hrecords]
    exact s.record_set x y (CallRecord.blank (s.releasedState x))
  · rw [State.line, hlines]
    exact s.freeLines_line x l
  · rw [State.link, hlinks]
    exact s.releaseRequest_link x gk
  · rw [hrecords, hlines, hlinks]
    rw [State.releaseReserved_cases] at harb
    exact harb

/-! ## A freed operate slot (R51, R53) -/

theorem State.SlotAwaited.ne {s : State} {x y : Circuit} {n : Fin 4} {yp : Crosspoint} {later : List Circuit}
    (h : s.SlotAwaited x n y yp later) : y ≠ x := by
  obtain ⟨-, -, -, hne, -⟩ := h
  exact hne

/-- The slot of a record freed and granted to the head of the wait list in the same event (R53). -/
theorem State.freeSlotOf_awaited {s : State} {x y : Circuit} {n : Fin 4} {yp : Crosspoint} {later : List Circuit}
    (h : s.SlotAwaited x n y yp later) : s.freeSlotOf x = s.slotGranted n y yp later := by
  obtain ⟨hn, hothers, hwait, -, hnext⟩ := h
  let freed := s.operateSlots.map fun o => if o = some x then none else o
  have hentry : ∀ m : Fin 4, freed[m] = if m = n then none else s.operateSlots[m] := fun m => by
    have hmap : freed[m] = if s.operateSlots[m] = some x then none else s.operateSlots[m] := by simp [freed]
    rw [hmap]
    by_cases hm : m = n
    · subst hm
      rw [if_pos hn, if_pos rfl]
    · rw [if_neg (hothers m hm).1, if_neg hm]
  obtain ⟨i, free, hfree, hi⟩ := State.freeOperateSlots_cons (s := { s with operateSlots := freed }) ⟨n, by rw [hentry, if_pos rfl]⟩
  have hin : i = n := by
    by_contra hne
    rw [hentry, if_neg hne] at hi
    exact (hothers i hne).2 hi
  subst hin
  have hset : freed.set i.val (some y) i.isLt = s.operateSlots.set i.val (some y) i.isLt := by
    refine Vector.ext fun k hk => ?_
    by_cases hki : i.val = k
    · simp [hki]
    · rw [Vector.getElem_set_ne _ _ hki, Vector.getElem_set_ne _ _ hki]
      exact (hentry ⟨k, hk⟩).trans (if_neg fun h => hki (congrArg Fin.val h).symm)
  refine (State.grantSlot_head _ i free y later hfree hwait).trans ((State.startMakeJob_some _ y yp (by exact hnext)).trans ?_)
  rw [State.slotGranted, ← hset]
  rfl

/-! ## Entry into CLEARING, seen after the arbiter (R36, R37, R64) -/

theorem State.ClearedAtOnce.arbiterOnly {u t t' : State} {x : Circuit} {c : ClearCause} (h : u.ClearedAtOnce t x c)
    (ht : State.ArbiterOnly t t') : u.ClearedAtOnce t' x c where
  record := by rw [ht.record, h.record]
  others := fun y hy => by rw [ht.record, h.others y hy]
  lines := fun l => by rw [ht.line, h.lines]
  links := fun gk => by rw [ht.link, h.links]
  rest := by
    rw [ht.records, ht.lines, ht.links]
    exact State.ArbiterOnly.trans h.rest ht

/-- What a cleared record leaves, when results are handed over and the dispatcher moves on. -/
theorem State.ClearedAtOnce.handed {u t : State} {x : Circuit} {c : ClearCause} (h : u.ClearedAtOnce t x c) (rs : List Result)
    (d : Dispatcher) :
    State.ClearedAtOnce { u with results := u.results ++ rs, dispatcher := d } { t with results := t.results ++ rs, dispatcher := d }
      x c where
  record := h.record
  others := h.others
  lines := h.lines
  links := h.links
  rest := by
    have hrest := h.rest
    rw [State.report_eq] at hrest ⊢
    rw [State.ArbiterOnly] at hrest ⊢
    rw [hrest]

/-- Entry into CLEARING leaves the processor's cycles, whether a crosspoint is to break or an unanswered call is complete at once. -/
theorem State.enterClearing_cycles {w : State} {x : Circuit} (c : ClearCause)
    (h : nextMade (w.record x).path ≠ none ∨ (w.record x).stamp = none) : (w.enterClearing x c).cycles = w.cycles := by
  cases hmade : nextMade (w.record x).path with
  | some xm => rw [State.enterClearing_made w x c xm hmade, State.clearedTo_cycles]
  | none =>
    have hrest := (State.enterClearing_unmade w x c hmade (h.resolve_left (not_not.mpr hmade))).rest
    rw [hrest, State.report_cycles]

/-- An event that hands over results, moves the dispatcher and clears record `x` of `w`, as the arbiter leaves it. -/
theorem State.enterClearing_asked {w : State} {x : Circuit} {c : ClearCause} (hcycles : w.cycles = []) (rs : List Result)
    (d : Dispatcher) :
    let u : State := { w with results := w.results ++ rs, dispatcher := d }
    let t : State := { w.enterClearing x c with results := (w.enterClearing x c).results ++ rs, dispatcher := d }.askPort
    (∀ xm, nextMade (w.record x).path = some xm → State.ArbiterOnly (u.clearedTo x c xm) t) ∧
      (nextMade (w.record x).path = none → (w.record x).stamp = none → u.ClearedAtOnce t x c) := by
  refine ⟨fun xm hmade => ?_, fun hmade hstamp => ?_⟩
  · rw [State.enterClearing_made w x c xm hmade]
    refine State.ArbiterOnly.rebase (State.askPort_arbiterOnly _ (by rw [← hcycles]; exact w.clearedTo_cycles x c xm)) ?_
    simp only [State.clearedTo, State.report_eq]
    rfl
  · have hcleared := (State.enterClearing_unmade w x c hmade hstamp).handed rs d
    exact hcleared.arbiterOnly (State.askPort_arbiterOnly _ (by
      rw [← hcycles]
      exact State.enterClearing_cycles c (.inr hstamp)))

/-! ## RELEASE of a SETTING record (R62) -/

theorem State.queuedMake_none {s : State} {x : Circuit} (h : ∀ xp, .makeCmd x xp ∉ s.txQueue) : s.queuedMake x = none := by
  simp only [State.queuedMake, Option.filter_eq_none_iff, List.contains_iff_mem]
  exact fun xp _ => h xp

theorem State.queuedMake_some {s : State} {x : Circuit} {xp : Crosspoint} (hpoint : inFlightPoint (s.record x).path = some xp)
    (hqueued : .makeCmd x xp ∈ s.txQueue) : s.queuedMake x = some xp := by
  simp [State.queuedMake, hpoint, hqueued]

/-- Entry into CLEARING before its break job: a change of the record, the transmit queue and the reports. -/
theorem State.markClearing_eq (s : State) (x : Circuit) (c : ClearCause) :
    s.markClearing x c =
      { s with
        records := s.records.set x.val
          { s.record x with
            state := .clearing, cause := some c, settle := none, calledClear := none, grace := none, releasePending := false } x.isLt,
        txQueue := s.txQueue.filter fun d => d ≠ .payTone x,
        reports := reportsAfter s.reports (.clear x c), reportsLost := lostAfter s.reports s.reportsLost } := by
  rw [State.markClearing, State.report_eq]
  rfl

theorem State.record_set_same (s : State) (x : Circuit) (r : CallRecord) :
    ({ s with records := s.records.set x.val r x.isLt } : State).record x = r := (s.record_set x x r).trans (if_pos rfl)

theorem State.handConnectResult_markClearing (s : State) (x : Circuit) (c : ClearCause) (code : ResultCode) :
    (s.markClearing x c).handConnectResult x code = (s.handConnectResult x code).markClearing x c := by
  simp only [State.handConnectResult_eq, State.markClearing_eq]
  simp [State.record, connectResult]

theorem State.freeSlotOf_markClearing_nobody {s : State} (x : Circuit) (c : ClearCause) (h : s.waitList = []) :
    (s.markClearing x c).freeSlotOf x = (s.freeSlotOf x).markClearing x c := by
  rw [State.freeSlotOf_nobody s x h, State.freeSlotOf_nobody _ x (by rw [State.markClearing_eq]; exact h), State.markClearing_eq,
    State.markClearing_eq]
  rfl

theorem State.slotGranted_record {s : State} {x y : Circuit} {n : Fin 4} {yp : Crosspoint} {later : List Circuit} (hxy : y ≠ x) :
    (s.slotGranted n y yp later).record x = s.record x := State.record_setRecord_ne s y x _ hxy.symm

theorem State.freeSlotOf_markClearing_awaited {s : State} {x y : Circuit} {n : Fin 4} {yp : Crosspoint} {later : List Circuit}
    (c : ClearCause) (h : s.SlotAwaited x n y yp later) :
    (s.markClearing x c).freeSlotOf x = (s.freeSlotOf x).markClearing x c := by
  have hxy : y ≠ x := h.ne
  have hy : (s.markClearing x c).record y = s.record y := by
    rw [State.markClearing_eq]
    exact State.record_setRecord_ne s x y _ hxy
  have h' : (s.markClearing x c).SlotAwaited x n y yp later := by
    rw [State.SlotAwaited, hy, State.markClearing_eq]
    exact h
  have hv : x.val ≠ y.val := fun e => hxy (Fin.ext e.symm)
  rw [State.freeSlotOf_awaited h, State.freeSlotOf_awaited h', State.markClearing_eq (s.slotGranted n y yp later),
    State.slotGranted_record hxy, State.slotGranted, hy, State.markClearing_eq]
  simp only [State.slotGranted, Vector.set_comm _ _ hv, List.filter_append]
  rfl

/-- RELEASE of a SETTING record with its MAKE still queued: clearing, with the freed slot and the bound connect's result before it (R62). -/
theorem State.releaseSetting_queued {s : State} {x : Circuit} {xp : Crosspoint} (hqueued : s.queuedMake x = some xp)
    (hslot : s.waitList = [] ∨ ∃ n y yp later, s.SlotAwaited x n y yp later) :
    s.releaseSetting x =
      (((((s.withdraw (.makeCmd x xp)).markPoint x xp .unmade).freeSlotOf x).handConnectResult x .released).enterClearing x .order) := by
  have hcomm : ((((s.withdraw (.makeCmd x xp)).markPoint x xp .unmade).markClearing x .order).freeSlotOf x) =
      ((((s.withdraw (.makeCmd x xp)).markPoint x xp .unmade).freeSlotOf x).markClearing x .order) := by
    rcases hslot with hnobody | ⟨n, y, yp, later, hawaited⟩
    · exact State.freeSlotOf_markClearing_nobody x .order hnobody
    · refine State.freeSlotOf_markClearing_awaited (n := n) (y := y) (yp := yp) (later := later) .order ?_
      have hy : ((s.withdraw (.makeCmd x xp)).markPoint x xp .unmade).record y = s.record y :=
        State.record_setRecord_ne s x y _ hawaited.ne
      rw [State.SlotAwaited, hy]
      exact hawaited
  rw [State.releaseSetting, hqueued]
  simp only [hcomm, State.handConnectResult_markClearing]
  rfl

theorem State.releaseSetting_nobody {s : State} {x : Circuit} {xp : Crosspoint} (hqueued : s.queuedMake x = some xp)
    (hnobody : s.waitList = []) :
    s.releaseSetting x =
      ({ s with
        operateSlots := s.operateSlots.map fun o => if o = some x then none else o,
        records := s.records.set x.val
          { s.record x with boundSlot := none, path := markPath (s.record x).path xp .unmade } x.isLt,
        txQueue := s.txQueue.filter fun d => d ≠ .makeCmd x xp,
        results := s.results ++ connectResult x (s.record x) .released } : State).enterClearing x .order := by
  rw [State.releaseSetting_queued hqueued (.inl hnobody), State.freeSlotOf_nobody _ x (by exact hnobody), State.handConnectResult_eq]
  simp [State.markPoint, State.withdraw, State.setRecord, State.record, connectResult]

theorem State.releaseSetting_awaited {s : State} {x y : Circuit} {xp yp : Crosspoint} {n : Fin 4} {later : List Circuit}
    (hqueued : s.queuedMake x = some xp) (hawaited : s.SlotAwaited x n y yp later) :
    let g : State := ({ s with txQueue := s.txQueue.filter fun d => d ≠ .makeCmd x xp } : State).slotGranted n y yp later
    s.releaseSetting x =
      ({ g with
        records := g.records.set x.val
          { s.record x with boundSlot := none, path := markPath (s.record x).path xp .unmade } x.isLt,
        results := s.results ++ connectResult x (s.record x) .released } : State).enterClearing x .order := by
  have hv : x.val ≠ y.val := fun e => hawaited.ne (Fin.ext e.symm)
  have hy : ((s.withdraw (.makeCmd x xp)).markPoint x xp .unmade).record y = s.record y :=
    State.record_setRecord_ne s x y _ hawaited.ne
  have hawaited' : ((s.withdraw (.makeCmd x xp)).markPoint x xp .unmade).SlotAwaited x n y yp later := by
    rw [State.SlotAwaited, hy]
    exact hawaited
  rw [State.releaseSetting_queued hqueued (.inr ⟨n, y, yp, later, hawaited⟩), State.freeSlotOf_awaited hawaited',
    State.handConnectResult_eq, State.slotGranted_record hawaited.ne]
  simp only [State.slotGranted, hy]
  simp [State.markPoint, State.withdraw, State.setRecord, Vector.set_comm _ _ hv, State.record, connectResult]

theorem State.OrderFree.cycles {s : State} {i : OrderSlot} (h : s.OrderFree i) : s.cycles = [] := by
  obtain ⟨-, -, -, -, hcycles, -⟩ := h
  exact hcycles

/-- What RELEASE of a SETTING record leaves when its rule clears the record. -/
theorem exec_release_clears {s W : State} {i : OrderSlot} {w : Word} {x : Circuit} {r : CallRecord} (hs : s.OrderFree i) (hx : w.toNat = x.val)
    (hstate : (s.record x).state = .setting)
    (hrel : (s.setSlotState i .inFlight).releaseSetting x = W.enterClearing x .order) (hcycles : W.cycles = [])
    (hr : W.record x = r) :
    let u : State := { W with results := W.results ++ [{ slot := i, code := .done, circuit := some x }], dispatcher := .waiting i }
    ∃ t, exec (.release i w) s = .next t ∧
      (∀ xm, nextMade r.path = some xm → State.ArbiterOnly (u.clearedTo x .order xm) t) ∧
      (nextMade r.path = none → r.stamp = none → u.ClearedAtOnce t x .order) := by
  subst hr
  have happly : applyRelease w (s.setSlotState i .inFlight) = .result .done (some x) (W.enterClearing x .order) := by
    have hstate' : ((s.setSlotState i .inFlight).record x).state = .setting := hstate
    simp only [applyRelease, circuitArg_circuit hx, hstate', hrel]
  refine ⟨_, exec_of_entryOf (e := s.orderEntry i 4 (some w) none none) rfl, ?_⟩
  rw [State.giveOrder_result s _ (s.orderEntry i 4 (some w) none none) .done (some x) hs happly]
  exact State.enterClearing_asked hcycles _ _

/-- Settles O32: the MAKE of a SETTING record is found in the transmit queue or not, and its operate slot is awaited or not. -/
theorem releaseSettingWithdrawsOrWaits : Obligations.ReleaseSettingWithdrawsOrWaits := by
  unfold Obligations.ReleaseSettingWithdrawsOrWaits
  refine ⟨fun s i w x hs hx hstate => ⟨fun hsent => ?_, fun xp hpoint hqueued hnobody => ?_⟩,
    fun s i w x y xp yp n later hs hx hstate hpoint hqueued hawaited => ?_⟩
  · have hnone : (s.setSlotState i .inFlight).queuedMake x = none := State.queuedMake_none hsent
    refine exec_order_answered (c := .release i w) (e := s.orderEntry i 4 (some w) none none) rfl hs rfl ?_
    have hstate' : ((s.setSlotState i .inFlight).record x).state = .setting := hstate
    change applyRelease w (s.setSlotState i .inFlight) = _
    simp only [applyRelease, circuitArg_circuit hx, hstate', State.releaseSetting, hnone]
    rfl
  · have hmake : (s.setSlotState i .inFlight).queuedMake x = some xp := State.queuedMake_some hpoint hqueued
    exact exec_release_clears hs hx hstate (State.releaseSetting_nobody hmake hnobody) hs.cycles (State.record_set_same _ _ _)
  · have hmake : (s.setSlotState i .inFlight).queuedMake x = some xp := State.queuedMake_some hpoint hqueued
    exact exec_release_clears hs hx hstate (State.releaseSetting_awaited (s := s.setSlotState i .inFlight) hmake hawaited) hs.cycles
      (State.record_set_same _ _ _)

end Sys2Proof.Machine
end

section
/-!
PROOF. The Matrix Port: the words and frames on MXO (O54), and the responses on MXI that are discarded (O55).
-/

namespace Sys2Proof.Machine

set_option Elab.async false

/-! ## Commands on MXO (R54, R55, R174) -/

theorem crosspointField_lt (xp : Crosspoint) : crosspointField xp < 16384 := by
  cases xp
  all_goals
    simp only [crosspointField]
    omega

/-- The frame of a word, bit by bit (R174). -/
theorem frameBits_data (w : Word) {n : Nat} (h : n < 16) : (frameBits w).getD (n + 1) true = w.getLsbD n := by
  simp [frameBits, List.getD_eq_getElem?_getD, List.getElem?_append, h]

theorem frameBits_parity (w : Word) : (frameBits w).getD 17 true = (onesCount w % 2 == 0) := rfl

/-- A parity bit that makes an even count of ones odd, and leaves an odd one (R174). -/
theorem parity_odd (n : Nat) : (n + (n % 2 == 0).toNat) % 2 = 1 := by
  rcases Nat.mod_two_eq_zero_or_one n with h | h <;> simp [h, Nat.add_mod]

/-- A parity bit the other way round makes an odd count even. -/
theorem parity_flip {n : Nat} {b : Bool} (h : (n + b.toNat) % 2 = 1) : (n + (!b).toNat) % 2 = 0 := by
  cases b with
  | false =>
    simp only [Bool.toNat_false, Bool.not_false, Bool.toNat_true] at h ⊢
    omega
  | true =>
    simp only [Bool.toNat_false, Bool.not_true, Bool.toNat_true] at h ⊢
    omega

theorem State.mxoLevel_onWire {s : State} {c : PortCommand} (h : s.onWire = some c) :
    s.mxoLevel = (frameBits c.word).getD ((1216 - s.wireLeft) / 64) true := by
  have hword : s.mxoWord = some c.word := by rw [State.mxoWord, h]; rfl
  rw [State.mxoLevel, hword]
  rfl

/-- Settles O54: the sent command's entry, and the frame read bit by bit. -/
theorem commandSentStartsTimer : Obligations.CommandSentStartsTimer := by
  unfold Obligations.CommandSentStartsTimer
  refine ⟨fun s c hp hwire => ?_, fun s hwire => ?_, fun s c hwire => ⟨c.word, by rw [State.mxoWord, hwire]; rfl, ?_, ?_⟩⟩
  · refine (running_next _ hp).trans ?_
    have hsent : s.commandSent = ({ s with outstanding := s.outstanding ++ sentEntry c } : State).beginCommand := by
      simp only [State.commandSent, hwire, Option.isNone_some, Bool.false_eq_true, if_false]
    rw [hsent, State.beginCommand]
    cases hq : s.txQueue <;> cases c
    all_goals rfl
  · have hword : s.mxoWord = none := by rw [State.mxoWord, hwire]; rfl
    exact ⟨hword, by rw [State.mxoLevel, hword]⟩
  · cases c with
    | makeCmd x xp =>
      have hlt := crosspointField_lt xp
      cases xp <;> exact toNat_ofNat_of_lt (by omega)
    | breakCmd x xp =>
      have hlt := crosspointField_lt xp
      have hword := toNat_ofNat_of_lt (n := 16384 + crosspointField xp) (by omega)
      cases xp with
      | a g p k =>
        refine hword.trans ?_
        simp only [crosspointField]
        omega
      | b k g j =>
        refine hword.trans ?_
        simp only [crosspointField]
        omega
    | clearAll => rfl
    | payTone x => exact toNat_ofNat_of_lt (by omega)
  · rintro i rfl
    rw [State.mxoLevel_onWire hwire]
    refine ⟨fun h => ?_, fun n hn h => ?_, fun h => ?_, fun h => ?_⟩
    · rw [h]; rfl
    · rw [h]; exact frameBits_data _ hn
    · rw [h]; exact parity_odd _
    · rw [h]; rfl

/-! ## Responses on MXI (R55, R174) -/

theorem bitField_eq {n : Nat} (w : BitVec n) (lo len : Nat) : bitField w lo len = w.toNat / 2 ^ lo % 2 ^ len := by
  rw [bitField, BitVec.extractLsb'_toNat, Nat.shiftRight_eq_div_pow]

/-- The number of ones over the top bits and the body of a response word. -/
theorem onesCount_responseWord (fail brk : Bool) (r : Response) :
    onesCount (responseWord fail brk r) =
      ((List.range 14).filter fun n => r.body.getLsbD n).length + fail.toNat + brk.toNat := by
  have hrange : List.range 16 = List.range 14 ++ [14, 15] := rfl
  have hbody : ((List.range 14).filter fun n => (responseWord fail brk r).getLsbD n) =
      (List.range 14).filter fun n => r.body.getLsbD n :=
    List.filter_congr fun n hn => by
      have hn' : n < 14 := List.mem_range.mp hn
      rw [responseWord, BitVec.getLsbD_append, BitVec.getLsbD_append]
      simp only [hn', Nat.lt_add_left 1 hn', if_true]
  have hbrk : (responseWord fail brk r).getLsbD 14 = brk := by
    rw [responseWord, BitVec.getLsbD_append, BitVec.getLsbD_append]
    simp
  have hfail : (responseWord fail brk r).getLsbD 15 = fail := by
    rw [responseWord, BitVec.getLsbD_append]
    simp
  rw [onesCount, hrange, List.filter_append, List.length_append, hbody]
  simp only [List.filter_cons, List.filter_nil, hbrk, hfail]
  cases fail <;> cases brk <;> rfl

theorem frameOk_board (fail brk : Bool) (xp : Crosspoint) :
    frameOk (responseWord fail brk (boardResponse fail brk xp)) (boardResponse fail brk xp) = true := by
  simp only [frameOk, Bool.and_eq_true, beq_iff_eq]
  exact ⟨rfl, parity_odd _⟩

/-- The body of a crosspoint is read back as it (section 11.8). -/
theorem bodyCrosspoint_field (xp : Crosspoint) : bodyCrosspoint (BitVec.ofNat 14 (crosspointField xp)) = some xp := by
  have hlt := crosspointField_lt xp
  have hval : (BitVec.ofNat 14 (crosspointField xp)).toNat = crosspointField xp := by
    rw [BitVec.toNat_ofNat]
    exact Nat.mod_eq_of_lt hlt
  have hbit : ∀ i, (BitVec.ofNat 14 (crosspointField xp)).getLsbD i = decide (crosspointField xp / 2 ^ i % 2 = 1) := fun i => by
    rw [BitVec.getLsbD, hval, Nat.testBit_eq_decide_div_mod_eq]
  simp only [bodyCrosspoint, hbit, bitField_eq, hval]
  cases xp with
  | a g p k =>
    have hstage : ¬ (crosspointField (.a g p k) / 2 ^ 13 % 2 = 1) := by simp only [crosspointField]; omega
    have hg : crosspointField (.a g p k) / 2 ^ 9 % 2 ^ 4 = g.val := by simp only [crosspointField]; omega
    have hp : crosspointField (.a g p k) / 2 ^ 4 % 2 ^ 5 = p.val := by simp only [crosspointField]; omega
    have hk : crosspointField (.a g p k) / 2 ^ 0 % 2 ^ 4 = k.val := by simp only [crosspointField]; omega
    simp only [decide_eq_false hstage, Bool.false_eq_true, if_false, hg, hp, hk, crosspointA, g.isLt, p.isLt, k.isLt, and_self,
      dif_pos]
  | b k g j =>
    have hstage : crosspointField (.b k g j) / 2 ^ 13 % 2 = 1 := by simp only [crosspointField]; omega
    have h3 : ¬ (crosspointField (.b k g j) / 2 ^ 3 % 2 = 1) := by simp only [crosspointField]; omega
    have h12 : ¬ (crosspointField (.b k g j) / 2 ^ 12 % 2 = 1) := by simp only [crosspointField]; omega
    have hk : crosspointField (.b k g j) / 2 ^ 8 % 2 ^ 4 = k.val := by simp only [crosspointField]; omega
    have hg : crosspointField (.b k g j) / 2 ^ 4 % 2 ^ 4 = g.val := by simp only [crosspointField]; omega
    have hj : crosspointField (.b k g j) / 2 ^ 0 % 2 ^ 3 = j.val := by simp only [crosspointField]; omega
    simp only [decide_eq_true hstage, decide_eq_false h3, decide_eq_false h12, Bool.or_self, Bool.false_eq_true, if_false, if_true,
      hk, hg, hj, crosspointB, g.isLt, j.isLt, k.isLt, and_self, dif_pos]

/-- A board's response is read back as its crosspoint (R174). -/
theorem receivedCrosspoint_board (fail brk : Bool) (xp : Crosspoint) :
    receivedCrosspoint fail brk (boardResponse fail brk xp) = some xp := by
  rw [receivedCrosspoint, if_pos (frameOk_board fail brk xp)]
  exact bodyCrosspoint_field xp

theorem receivedCrosspoint_badFrame {fail brk : Bool} {r : Response} (h : frameOk (responseWord fail brk r) r = false) :
    receivedCrosspoint fail brk r = none := by
  rw [receivedCrosspoint, h]
  rfl

/-- Of even parity, a response word is discarded (R174). -/
theorem frameOk_even {fail brk : Bool} {r : Response}
    (h : (((List.range 14).filter fun n => r.body.getLsbD n).length + fail.toNat + brk.toNat + r.parity.toNat) % 2 = 0) :
    frameOk (responseWord fail brk r) r = false := by
  rw [frameOk, onesCount_responseWord, h, Bool.and_eq_false_iff]
  exact .inr rfl

/-- A body with a bit that its stage leaves 0, or with a link number above 9, names no crosspoint (section 11.8). -/
theorem bodyCrosspoint_none {b : BitVec 14}
    (h : (b.getLsbD 13 = true ∧ (b.getLsbD 3 = true ∨ b.getLsbD 12 = true ∨ 10 ≤ b.toNat / 256 % 16)) ∨
      (b.getLsbD 13 = false ∧ 10 ≤ b.toNat % 16)) : bodyCrosspoint b = none := by
  have hlink : bitField b 8 4 = b.toNat / 256 % 16 := bitField_eq b 8 4
  have hpoint : bitField b 0 4 = b.toNat % 16 := by
    rw [bitField_eq, Nat.pow_zero, Nat.div_one]
    rfl
  rcases h with ⟨hb, h3 | h12 | hk⟩ | ⟨ha, hk⟩
  · simp only [bodyCrosspoint, hb, h3, Bool.true_or, if_true]
  · simp only [bodyCrosspoint, hb, h12, Bool.or_true, if_true]
  · have hno : crosspointB (bitField b 8 4) (bitField b 4 4) (bitField b 0 3) = none :=
      dif_neg fun h => by rw [hlink] at h; omega
    simp only [bodyCrosspoint, hb, if_true, hno, ite_self]
  · have hno : crosspointA (bitField b 9 4) (bitField b 4 5) (bitField b 0 4) = none :=
      dif_neg fun h => by rw [hpoint] at h; omega
    simp only [bodyCrosspoint, ha, Bool.false_eq_true, if_false, hno]

theorem running_same {f : State → State} {s : State} (h : f s = s) : running f s = .next s := by
  rw [running, h, ite_self]

theorem State.received_discarded {s : State} {fail : Bool} {k : JobKind} {r : Response} (f : State → Circuit → Crosspoint → State)
    (h : receivedCrosspoint fail (decide (k = .breakJob)) r = none) : s.received fail k r f = s := by
  rw [State.received, h]

theorem State.matched_unmatched {s : State} {k : JobKind} {xp : Crosspoint} (f : State → Circuit → State)
    (h : ∀ o ∈ s.outstanding, o.xp = xp → o.kind ≠ k) : s.matched k xp f = s := by
  have hnone : s.outstandingFor k xp = none := by
    simp only [State.outstandingFor, Outstanding.answers, List.find?_eq_none, Bool.and_eq_true, decide_eq_true_eq]
    exact fun o ho hk => h o ho hk.2 hk.1
  rw [State.matched, hnone]

/-- The four responses, by their top bits (section 11.8). -/
def responseInstr (fail brk : Bool) (r : Response) : Instr :=
  match fail, brk with
  | false, false => .makeDone r
  | true, false => .makeFail r
  | false, true => .breakDone r
  | true, true => .breakFail r

/-- The kind of the command that a response answers. -/
def responseKind (brk : Bool) : JobKind := if brk then .breakJob else .makeJob

/-- What the job of a response makes of it (R56, R58, R65). -/
def responseJob (fail brk : Bool) : State → Circuit → Crosspoint → State :=
  match fail, brk with
  | false, false => State.makeDone
  | true, false => State.makeFailed
  | false, true => State.breakDone
  | true, true => State.breakFaulted

theorem decide_responseKind (brk : Bool) : decide (responseKind brk = .breakJob) = brk := by cases brk <;> rfl

theorem exec_response (fail brk : Bool) (r : Response) (s : State) :
    exec (responseInstr fail brk r) s = running (fun s => s.received fail (responseKind brk) r (responseJob fail brk)) s := by
  cases fail <;> cases brk <;> rfl

/-- A response whose word names no crosspoint changes nothing (R174). -/
theorem exec_response_discarded {s : State} {fail brk : Bool} {r : Response} (h : receivedCrosspoint fail brk r = none) :
    exec (responseInstr fail brk r) s = .next s := by
  rw [exec_response]
  exact running_same (State.received_discarded _ (by rw [decide_responseKind]; exact h))

theorem State.received_board (s : State) (fail brk : Bool) (xp : Crosspoint) (f : State → Circuit → Crosspoint → State) :
    s.received fail (responseKind brk) (boardResponse fail brk xp) f = s.matched (responseKind brk) xp fun s x => f s x xp := by
  rw [State.received, decide_responseKind, receivedCrosspoint_board]

theorem exec_response_unmatched {s : State} {fail brk : Bool} {xp : Crosspoint}
    (h : ∀ o ∈ s.outstanding, o.xp = xp → o.kind ≠ responseKind brk) :
    exec (responseInstr fail brk (boardResponse fail brk xp)) s = .next s := by
  rw [exec_response]
  exact running_same ((State.received_board s fail brk xp _).trans (State.matched_unmatched _ h))

/-- Each of the four responses is discarded when its word names no crosspoint under any top bits. -/
theorem exec_responses_discarded {s : State} {r : Response} (h : ∀ fail brk, receivedCrosspoint fail brk r = none) :
    exec (.makeDone r) s = .next s ∧ exec (.makeFail r) s = .next s ∧ exec (.breakDone r) s = .next s ∧
      exec (.breakFail r) s = .next s :=
  ⟨exec_response_discarded (h false false), exec_response_discarded (h true false), exec_response_discarded (h false true),
    exec_response_discarded (h true true)⟩

/-- Settles O55: each ground of discard leaves the state as it is. -/
theorem unmatchedResponsesDiscarded : Obligations.UnmatchedResponsesDiscarded := by
  unfold Obligations.UnmatchedResponsesDiscarded
  refine ⟨fun s fail brk xp => ⟨receivedCrosspoint_board fail brk xp, exec_response_unmatched⟩,
    fun s r => ⟨fun hstop => ?_, fun xp hr => ?_, fun hbody => ?_⟩, fun s r fail brk heven => ?_⟩
  · exact exec_responses_discarded fun fail brk => receivedCrosspoint_badFrame (by rw [frameOk, hstop]; rfl)
  · refine exec_response_discarded (fail := false) (brk := false) (receivedCrosspoint_badFrame (frameOk_even ?_))
    have hodd : (onesCount (responseWord false false (boardResponse false false xp)) +
        (boardResponse false false xp).parity.toNat) % 2 = 1 := parity_odd _
    rw [onesCount_responseWord] at hodd
    rw [hr]
    exact parity_flip hodd
  · refine exec_responses_discarded fun fail brk => ?_
    rw [receivedCrosspoint, bodyCrosspoint_none hbody, ite_self]
  · exact exec_response_discarded (receivedCrosspoint_badFrame (frameOk_even heven))

end Sys2Proof.Machine
end

section
/-!
PROOF. The make job: MAKE_DONE (O56), and the MAKE failures that end a connect (O57).
-/

namespace Sys2Proof.Machine

set_option Elab.async false

/-! ## A response or timeout that is awaited (R55) -/

/-- A board's response to an outstanding command is taken by its job; then the arbiter chooses (R55). -/
theorem exec_response_awaited {s : State} {fail brk : Bool} {xp : Crosspoint} {x : Circuit} {rest : List Outstanding}
    (hp : s.phase ≠ .held) (h : s.awaits (responseKind brk) xp x rest) :
    exec (responseInstr fail brk (boardResponse fail brk xp)) s =
      .next (responseJob fail brk { s with outstanding := rest } x xp).askPort := by
  rw [exec_response]
  refine (running_next _ hp).trans ?_
  rw [State.received_board, State.matched_awaits s (responseKind brk) xp x rest _ h]

theorem exec_makeTimeout {s : State} {xp : Crosspoint} {x : Circuit} {rest : List Outstanding} (hp : s.phase ≠ .held)
    (h : s.awaits .makeJob xp x rest) :
    exec (.makeTimeout xp) s = .next (({ s with outstanding := rest } : State).makeTimedOut x xp).askPort := by
  refine (running_next (fun s => s.matched .makeJob xp fun s x => s.makeTimedOut x xp) hp).trans ?_
  rw [State.matched_awaits s .makeJob xp x rest _ h]

theorem exec_breakTimeout {s : State} {xp : Crosspoint} {x : Circuit} {rest : List Outstanding} (hp : s.phase ≠ .held)
    (h : s.awaits .breakJob xp x rest) :
    exec (.breakTimeout xp) s = .next (({ s with outstanding := rest } : State).breakFaulted x xp).askPort := by
  refine (running_next (fun s => s.matched .breakJob xp fun s x => s.breakFaulted x xp) hp).trans ?_
  rw [State.matched_awaits s .breakJob xp x rest _ h]

theorem State.responded_record (s : State) (x : Circuit) (xp : Crosspoint) (mark : Mark) (rest : List Outstanding) :
    (s.responded x xp mark rest).record x = { s.record x with path := markPath (s.record x).path xp mark } :=
  State.record_set_same _ x _

theorem State.responded_record_ne {s : State} {x y : Circuit} (xp : Crosspoint) (mark : Mark) (rest : List Outstanding) (h : y ≠ x) :
    (s.responded x xp mark rest).record y = s.record y := State.record_setRecord_ne s x y _ h

theorem State.SlotAwaited.congr {s t : State} {x y : Circuit} {n : Fin 4} {yp : Crosspoint} {later : List Circuit}
    (h : s.SlotAwaited x n y yp later) (hops : t.operateSlots = s.operateSlots) (hw : t.waitList = s.waitList)
    (hy : t.record y = s.record y) : t.SlotAwaited x n y yp later := by
  rw [State.SlotAwaited, hops, hw, hy]
  exact h

/-! ## The ends of the make job (R57, R61, R63) -/

section ConnectEnds

variable {s g : State} {x : Circuit} (hg : s.freeSlotOf x = g) (hr : g.record x = s.record x)

include hg hr

/-- Every crosspoint is made: the slot is freed, and granted on, the record rings and its connect is answered (R57). -/
theorem State.makeComplete_eq :
    s.makeComplete x =
      { g with
        records := g.records.set x.val { s.record x with state := .ringing, settle := some 819200, boundSlot := none } x.isLt,
        results := g.results ++ connectResult x (s.record x) .connected } := by
  rw [State.makeComplete, hg, State.handConnectResult_eq, State.modifyRecord_eq, State.record_setRecord_same, hr]
  simp [State.setRecord, connectResult, Config.settlePeriods]

/-- The connect ends with a result before the record clears: the slot is freed, and granted on (R61, R63). -/
theorem State.connectEnded_eq (code : ResultCode) :
    (s.freeSlotOf x).handConnectResult x code =
      { g with
        records := g.records.set x.val { s.record x with boundSlot := none } x.isLt,
        results := g.results ++ connectResult x (s.record x) code } := by
  rw [hg, State.handConnectResult_eq, hr]

end ConnectEnds

/-- Clearing record `x` of `w` in an event of its own, as the arbiter leaves it. -/
theorem State.enterClearing_arbiter {w : State} {x : Circuit} {r : CallRecord} (c : ClearCause) (hcycles : w.cycles = [])
    (hr : w.record x = r) :
    (∀ xm, nextMade r.path = some xm → State.ArbiterOnly (w.clearedTo x c xm) (w.enterClearing x c).askPort) ∧
      (nextMade r.path = none → r.stamp = none → w.ClearedAtOnce (w.enterClearing x c).askPort x c) := by
  subst hr
  refine ⟨fun xm hmade => ?_, fun hmade hstamp => ?_⟩
  · rw [State.enterClearing_made w x c xm hmade]
    exact State.askPort_arbiterOnly _ ((w.clearedTo_cycles x c xm).trans hcycles)
  · refine (State.enterClearing_unmade w x c hmade hstamp).arbiterOnly (State.askPort_arbiterOnly _ ?_)
    rw [State.enterClearing_cycles c (.inr hstamp)]
    exact hcycles

/-- `g` after the connect of record `x`, now `r`, has been answered and its slot binding is gone. -/
def State.connectAnswered (g : State) (x : Circuit) (r : CallRecord) (rs : List Result) : State :=
  { g with records := g.records.set x.val { r with boundSlot := none } x.isLt, results := g.results ++ rs }

theorem State.connectAnswered_record (g : State) (x : Circuit) (r : CallRecord) (rs : List Result) :
    (g.connectAnswered x r rs).record x = { r with boundSlot := none } := State.record_set_same _ x _

/-- An event that ends the connect of record `x` of `v` and clears the record (R61, R63). -/
theorem exec_connectEnded {s v g : State} {i : Instr} {x : Circuit} {code : ResultCode} {clear : ClearCause} {rs : List Result}
    (hexec : exec i s = .next (((v.freeSlotOf x).handConnectResult x code).enterClearing x clear).askPort)
    (hg : v.freeSlotOf x = g) (hr : g.record x = v.record x) (hcycles : g.cycles = [])
    (hrs : connectResult x (v.record x) code = rs) :
    ∃ t, exec i s = .next t ∧
      (∀ xm, nextMade (v.record x).path = some xm →
        State.ArbiterOnly ((g.connectAnswered x (v.record x) rs).clearedTo x clear xm) t) ∧
      (nextMade (v.record x).path = none → (v.record x).stamp = none →
        (g.connectAnswered x (v.record x) rs).ClearedAtOnce t x clear) := by
  have hw : (v.freeSlotOf x).handConnectResult x code = g.connectAnswered x (v.record x) rs := by
    rw [State.connectEnded_eq hg hr, hrs]
    rfl
  rw [hw] at hexec
  have hcleared := State.enterClearing_arbiter (w := g.connectAnswered x (v.record x) rs) clear hcycles (g.connectAnswered_record x (v.record x) rs)
  exact ⟨_, hexec, hcleared⟩

/-! ## MAKE_DONE (R56, R57, R63) -/

section MakeDone

variable {s : State} {x : Circuit} {xp : Crosspoint} (rest : List Outstanding) (hstate : (s.record x).state = .setting)

include hstate

theorem State.makeDone_next {next : Crosspoint} (hpending : (s.record x).releasePending = false)
    (hnext : nextUnmade ((s.responded x xp .made rest).record x).path = some next) :
    ({ s with outstanding := rest } : State).makeDone x xp = (s.responded x xp .made rest).issueMake x next := by
  have hp : ((s.responded x xp .made rest).record x).releasePending = false := by rw [State.responded_record]; exact hpending
  have hmark : ({ s with outstanding := rest } : State).markPoint x xp .made = s.responded x xp .made rest := rfl
  have hstate' : (({ s with outstanding := rest } : State).record x).state = .setting := hstate
  simp only [State.makeDone, hstate', ne_eq, not_true_eq_false, if_false, hmark, hp, Bool.false_eq_true, hnext]

theorem State.makeDone_complete (hpending : (s.record x).releasePending = false)
    (hnext : nextUnmade ((s.responded x xp .made rest).record x).path = none) :
    ({ s with outstanding := rest } : State).makeDone x xp = (s.responded x xp .made rest).makeComplete x := by
  have hp : ((s.responded x xp .made rest).record x).releasePending = false := by rw [State.responded_record]; exact hpending
  have hmark : ({ s with outstanding := rest } : State).markPoint x xp .made = s.responded x xp .made rest := rfl
  have hstate' : (({ s with outstanding := rest } : State).record x).state = .setting := hstate
  simp only [State.makeDone, hstate', ne_eq, not_true_eq_false, if_false, hmark, hp, Bool.false_eq_true, hnext]

theorem State.makeDone_released (hpending : (s.record x).releasePending = true) :
    ({ s with outstanding := rest } : State).makeDone x xp = (s.responded x xp .made rest).releaseEnd x := by
  have hp : ((s.responded x xp .made rest).record x).releasePending = true := by rw [State.responded_record]; exact hpending
  have hmark : ({ s with outstanding := rest } : State).markPoint x xp .made = s.responded x xp .made rest := rfl
  have hstate' : (({ s with outstanding := rest } : State).record x).state = .setting := hstate
  simp only [State.makeDone, hstate', ne_eq, not_true_eq_false, if_false, hmark, hp, if_true]

end MakeDone

theorem connectResult_congr {x : Circuit} {r r' : CallRecord} {code : ResultCode} (h : r'.boundSlot = r.boundSlot) :
    connectResult x r' code = connectResult x r code := by
  rw [connectResult, connectResult, h]

/-- The bound slot of a record is as it was before its crosspoint was marked. -/
theorem State.responded_connectResult (s : State) (x : Circuit) (xp : Crosspoint) (mark : Mark) (rest : List Outstanding)
    (code : ResultCode) : connectResult x ((s.responded x xp mark rest).record x) code = connectResult x (s.record x) code :=
  connectResult_congr (by rw [State.responded_record])

theorem State.responded_awaited {s : State} {x y : Circuit} {n : Fin 4} {yp : Crosspoint} {later : List Circuit} (xp : Crosspoint)
    (mark : Mark) (rest : List Outstanding) (h : s.SlotAwaited x n y yp later) :
    (s.responded x xp mark rest).SlotAwaited x n y yp later := h.congr rfl rfl (State.responded_record_ne xp mark rest h.ne)

/-- The operate slots after slot `n` has been granted to record `y`. -/
theorem State.slotGranted_operateSlots (s : State) (n m : Fin 4) (y : Circuit) (yp : Crosspoint) (later : List Circuit) :
    (s.slotGranted n y yp later).operateSlots[m] = if m = n then some y else s.operateSlots[m] := by
  by_cases h : m = n
  · subst h
    rw [if_pos rfl]
    exact Vector.getElem_set_self m.isLt
  · rw [if_neg h]
    exact Vector.getElem_set_ne n.isLt m.isLt fun e => h (Fin.ext e.symm)

/-- Settles O56: the make job goes on, connects, or ends released; and a freed slot is granted on. -/
theorem makeDoneContinuesOrConnects : Obligations.MakeDoneContinuesOrConnects := by
  unfold Obligations.MakeDoneContinuesOrConnects
  refine ⟨fun s x xp rest hp hcycles hawaits hstate hpending => ⟨fun next hnext => ?_, fun hnext hnobody => ?_⟩,
    fun s x xp xm rest hp hcycles hawaits hstate hpending => ?_,
    fun s x y xp yp rest later n hp hcycles hawaits hstate hpending hnext hawaited => ?_⟩
  · have hexec := exec_response_awaited (fail := false) (brk := false) hp hawaits
    refine ⟨_, hexec, ?_⟩
    rw [responseJob, State.makeDone_next rest hstate hpending hnext]
    exact State.askPort_arbiterOnly _ hcycles
  · have hexec := exec_response_awaited (fail := false) (brk := false) hp hawaits
    refine ⟨_, hexec, ?_⟩
    rw [responseJob, State.makeDone_complete rest hstate hpending hnext,
      State.makeComplete_eq (State.freeSlotOf_nobody _ x (by exact hnobody)) rfl, State.responded_connectResult]
    exact State.askPort_arbiterOnly _ hcycles
  · have hexec := exec_response_awaited (fail := false) (brk := false) hp hawaits
    rw [responseJob, State.makeDone_released rest hstate hpending, State.releaseEnd] at hexec
    have hrs := s.responded_connectResult x xp .made rest .released
    refine fun hmade => ⟨fun hnobody => ?_, fun n y yp later hawaited => ?_⟩
    · obtain ⟨t, ht, hcleared, -⟩ := exec_connectEnded hexec (State.freeSlotOf_nobody _ x hnobody) rfl hcycles hrs
      exact ⟨t, ht, hcleared xm hmade⟩
    · obtain ⟨t, ht, hcleared, -⟩ := exec_connectEnded hexec (State.freeSlotOf_awaited (State.responded_awaited xp .made rest hawaited))
        (State.slotGranted_record hawaited.ne) hcycles hrs
      exact ⟨t, ht, hcleared xm hmade⟩
  · have hexec := exec_response_awaited (fail := false) (brk := false) hp hawaits
    rw [responseJob, State.makeDone_complete rest hstate hpending (by rw [State.responded_record]; exact hnext),
      State.makeComplete_eq (State.freeSlotOf_awaited (State.responded_awaited xp .made rest hawaited))
        (State.slotGranted_record hawaited.ne), State.responded_connectResult] at hexec
    generalize hw : State.slotGranted _ n y yp later = g at hexec
    obtain ⟨t, ht, harb⟩ : ∃ t, exec (.makeDone (boardResponse false false xp)) s = .next t ∧ State.ArbiterOnly
        { g with
          records := g.records.set x.val
            { (s.responded x xp .made rest).record x with state := .ringing, settle := some 819200, boundSlot := none } x.isLt,
          results := g.results ++ connectResult x (s.record x) .connected } t :=
      ⟨_, hexec, State.askPort_arbiterOnly _ (by rw [← hw]; exact hcycles)⟩
    have hrecord : g.record y = { s.record y with state := .setting, path := markPath (s.record y).path yp .inFlight } := by
      rw [← hw]
      refine (State.record_set_same _ y _).trans ?_
      rw [State.responded_record_ne _ _ _ hawaited.ne]
    have hslots : ∀ m : Fin 4, g.operateSlots[m] = if m = n then some y else s.operateSlots[m] := fun m => by
      rw [← hw]
      exact State.slotGranted_operateSlots _ n m y yp later
    refine ⟨t, ht, by rw [← hw] at harb; exact harb, ?_, fun m => ?_⟩
    · rw [harb.record, ← hrecord]
      exact State.record_setRecord_ne g x y _ hawaited.ne
    · rw [← hslots, harb.operateSlots]

/-! ## MAKE_FAIL and MAKE_TIMEOUT (R12, R58, R61, R63) -/

/-- Recording a crosspoint changes the fault table, the links and the reports alone. -/
theorem State.makeFaultRecorded_frame (s : State) (xp : Crosspoint) (c : FaultCause) :
    s.makeFaultRecorded xp c =
      { s with
        faults := (s.makeFaultRecorded xp c).faults, links := (s.makeFaultRecorded xp c).links,
        reports := (s.makeFaultRecorded xp c).reports, reportsLost := (s.makeFaultRecorded xp c).reportsLost } := by
  simp only [State.makeFaultRecorded, State.linkTakenOut, State.report_eq]
  split_ifs <;> rfl

theorem State.makeFaultRecorded_record (s : State) (xp : Crosspoint) (c : FaultCause) (y : Circuit) :
    (s.makeFaultRecorded xp c).record y = s.record y := by
  rw [State.makeFaultRecorded_frame]
  rfl

/-- `v` is `s` but for its fault table, links and reports. -/
structure State.FaultsOnly (s v : State) : Prop where
  record : ∀ y, v.record y = s.record y
  operateSlots : v.operateSlots = s.operateSlots
  waitList : v.waitList = s.waitList
  results : v.results = s.results
  cycles : v.cycles = s.cycles
  cordPtr : v.cordPtr = s.cordPtr
  groupPtrs : v.groupPtrs = s.groupPtrs

theorem State.makeFaultRecorded_rest (s : State) (xp : Crosspoint) (c : FaultCause) : s.FaultsOnly (s.makeFaultRecorded xp c) := by
  rw [State.makeFaultRecorded_frame]
  exact ⟨fun _ => rfl, rfl, rfl, rfl, rfl, rfl, rfl⟩

/-- How a make failure marks and records its crosspoint (R58). -/
def makeFailure (i : Instr) (xp : Crosspoint) (mark : Mark) (cause : FaultCause) : Prop :=
  (i = .makeFail (boardResponse true false xp) ∧ mark = .unmade ∧ cause = .fail) ∨
    (i = .makeTimeout xp ∧ mark = .made ∧ cause = .makeTimeout)

theorem exec_makeFailure {s : State} {x : Circuit} {xp : Crosspoint} {rest : List Outstanding} {i : Instr} {mark : Mark}
    {cause : FaultCause} (hp : s.phase ≠ .held) (hawaits : s.awaits .makeJob xp x rest) (hstate : (s.record x).state = .setting)
    (hi : makeFailure i xp mark cause) :
    exec i s = .next (((s.responded x xp mark rest).makeFaultRecorded xp cause).afterMakeFailure x).askPort := by
  have hstate' : (({ s with outstanding := rest } : State).record x).state = .setting := hstate
  have hmark : ∀ m, ({ s with outstanding := rest } : State).markPoint x xp m = s.responded x xp m rest := fun _ => rfl
  rcases hi with ⟨rfl, rfl, rfl⟩ | ⟨rfl, rfl, rfl⟩
  · refine (exec_response_awaited (fail := true) (brk := false) hp hawaits).trans ?_
    simp only [responseJob, State.makeFailed, hstate', ne_eq, not_true_eq_false, if_false, hmark, State.recordFault_eq]
  · refine (exec_makeTimeout hp hawaits).trans ?_
    simp only [State.makeTimedOut, hstate', ne_eq, not_true_eq_false, if_false, hmark, State.recordFault_eq]

theorem State.localChoice_none {s : State} {x : Circuit} {la lb : Line} (hx : x.val < 24) (h : ∀ c, ¬ s.movesToCord x la lb c) :
    s.localChoice (failedExclusion x (s.record x).path) la lb = none :=
  find_from_none (fun m => s.cordPtr + m) _ fun _ => Bool.eq_false_of_iff (s.movesToCord_iff x hx la lb _) (h _)

theorem State.outgoingChoice_none {s : State} {x : Circuit} {la : Line} {g : JunctionGroup} (hx : 24 ≤ x.val) (hx' : x.val < 48)
    (h : ∀ q, ¬ s.movesToJunction x la g q) : s.outgoingChoice (failedExclusion x (s.record x).path) la g = none :=
  find_from_none (fun m => s.groupPtrs[g] + m) _ fun _ => Bool.eq_false_of_iff (s.movesToJunction_iff x hx hx' la g _) (h _)

theorem calledLine_line {c : Option Called} {l : Line} (h : calledLine c = some l) : c = some (.line l) := by
  unfold calledLine at h
  split at h
  next => cases h; rfl
  all_goals cases h

/-- With no circuit to take the re-hunt fails (R18, R20, R59). -/
theorem State.rehunt_none {s : State} {x : Circuit} (h : s.noRehunt x) (hunused : (s.record x).rehuntUsed = false) :
    s.rehunt x = none := by
  rcases h with hused | hin | ⟨hx, hcords⟩ | ⟨hx, hx', hjunctions⟩
  · rw [hunused] at hused; cases hused
  · simp only [State.rehunt, circuitKind_incoming hin]
  · simp only [State.rehunt, circuitKind_local hx]
    split
    next la lb hla hlb => rw [State.localHunt, State.localChoice_none hx fun c => hcords la lb c hla (calledLine_line hlb)]
    next => rfl
    next => rfl
  · simp only [State.rehunt, circuitKind_outgoing hx hx']
    split
    next la hla =>
      have hg : 24 + 8 * (groupOf x).val ≤ x.val ∧ x.val < 32 + 8 * (groupOf x).val := by
        simp only [groupOf]
        omega
      rw [State.outgoingHunt, State.outgoingChoice_none hx hx' fun q => hjunctions la _ q hla hg.1 hg.2]
    next => rfl

/-- How the connect of record `x` ends after a make failure that no re-hunt saves, by its pending release (R61, R63). -/
def State.connectEnds (s : State) (x : Circuit) (pending : Bool) (code : ResultCode) (clear : ClearCause) : Prop :=
  (pending = true ∧ code = .released ∧ clear = .order) ∨
    (pending = false ∧ s.noRehunt x ∧ code = .pathFault ∧ clear = .pathFault)

theorem State.afterMakeFailure_ends {s : State} {x : Circuit} {pending : Bool} {code : ResultCode} {clear : ClearCause}
    (hpending : (s.record x).releasePending = pending) (h : s.connectEnds x pending code clear) :
    s.afterMakeFailure x = ((s.freeSlotOf x).handConnectResult x code).enterClearing x clear := by
  rcases h with ⟨rfl, rfl, rfl⟩ | ⟨rfl, hno, rfl, rfl⟩
  · rw [State.afterMakeFailure, if_pos hpending]
    rfl
  · simp only [State.afterMakeFailure, hpending, Bool.false_eq_true, if_false]
    split
    next => rfl
    next hunused => rw [State.rehunt_none hno (Bool.eq_false_of_not_eq_true hunused)]; rfl

/-- Settles O57: the failure is recorded and its connect ends, the slot granted on or left free. -/
theorem makeFailureEndsConnect : Obligations.MakeFailureEndsConnect := by
  unfold Obligations.MakeFailureEndsConnect
  refine ⟨fun s x xp rest i mark cause code clear hp hcycles hawaits hstate hnobody hi => ?_,
    fun s x y xp yp rest i mark cause code clear n later hp hcycles hawaits hstate hawaited hi => ?_⟩
  · have hexec := exec_makeFailure hp hawaits hstate hi
    have hrest := (s.responded x xp mark rest).makeFaultRecorded_rest xp cause
    have hrecord := s.responded_record x xp mark rest
    have hrs := s.responded_connectResult x xp mark rest code
    rw [← hrest.record x] at hrecord hrs
    generalize (s.responded x xp mark rest).makeFaultRecorded xp cause = v at hexec hrest hrecord hrs
    refine fun hends => ?_
    rw [State.afterMakeFailure_ends (by rw [hrecord]) hends] at hexec
    obtain ⟨t, ht, hmade, hunmade⟩ := exec_connectEnded hexec (v.freeSlotOf_nobody x (hrest.waitList.trans hnobody)) rfl
      (hrest.cycles.trans hcycles) hrs
    simp only [State.connectAnswered, hrest.operateSlots, hrest.results] at hmade hunmade
    exact ⟨t, ht, hmade, fun h hstamp => hunmade h (by rw [hrecord]; exact hstamp)⟩
  · have hexec := exec_makeFailure hp hawaits hstate hi
    have hrest := (s.responded x xp mark rest).makeFaultRecorded_rest xp cause
    have hrecord := s.responded_record x xp mark rest
    have hrs := s.responded_connectResult x xp mark rest code
    have hy := State.responded_record_ne (s := s) xp mark rest hawaited.ne
    rw [← hrest.record x] at hrecord hrs
    rw [← hrest.record y] at hy
    generalize (s.responded x xp mark rest).makeFaultRecorded xp cause = v at hexec hrest hrecord hrs hy
    refine fun hends => ?_
    rw [State.afterMakeFailure_ends (by rw [hrecord]) hends] at hexec
    obtain ⟨t, ht, hmade, hunmade⟩ := exec_connectEnded hexec
      (State.freeSlotOf_awaited (hawaited.congr hrest.operateSlots hrest.waitList hy)) (State.slotGranted_record hawaited.ne)
      (hrest.cycles.trans hcycles) hrs
    have hresults : (v.slotGranted n y yp later).results = s.results := hrest.results
    simp only [State.connectAnswered, hresults] at hmade hunmade
    exact ⟨t, ht, hmade, fun h hstamp => hunmade h (by rw [hrecord]; exact hstamp)⟩

end Sys2Proof.Machine
end

section
/-!
PROOF. The break job: it goes on (O59), or ends with its links and lines freed and at most one ticket (O60).
-/

namespace Sys2Proof.Machine

set_option Elab.async false

/-! ## BREAK_DONE, BREAK_FAIL and BREAK_TIMEOUT (R12, R65) -/

/-- How the end of a BREAK marks and records its crosspoint (R65). -/
def breakEnd (s v : State) (x : Circuit) (xp : Crosspoint) (rest : List Outstanding) (i : Instr) : Prop :=
  (i = .breakDone (boardResponse false true xp) ∧ v = s.responded x xp .unmade rest) ∨
    ((i = .breakFail (boardResponse true true xp) ∨ i = .breakTimeout xp) ∧
      v = (s.responded x xp .unmade rest).breakFaultRecorded xp)

theorem exec_breakEnd {s v : State} {x : Circuit} {xp : Crosspoint} {rest : List Outstanding} {i : Instr} (hp : s.phase ≠ .held)
    (hawaits : s.awaits .breakJob xp x rest) (hstate : (s.record x).state = .clearing) (hi : breakEnd s v x xp rest i) :
    exec i s = .next (v.breakNext x).askPort := by
  have hstate' : (({ s with outstanding := rest } : State).record x).state = .clearing := hstate
  have hmark : ({ s with outstanding := rest } : State).markPoint x xp .unmade = s.responded x xp .unmade rest := rfl
  rcases hi with ⟨rfl, rfl⟩ | ⟨rfl | rfl, rfl⟩
  · refine (exec_response_awaited (fail := false) (brk := true) hp hawaits).trans ?_
    simp only [responseJob, State.breakDone, hstate', ne_eq, not_true_eq_false, if_false, hmark]
  · refine (exec_response_awaited (fail := true) (brk := true) hp hawaits).trans ?_
    simp only [responseJob, State.breakFaulted, hstate', ne_eq, not_true_eq_false, if_false, hmark, State.recordBreakFault_eq]
  · refine (exec_breakTimeout hp hawaits).trans ?_
    simp only [State.breakFaulted, hstate', ne_eq, not_true_eq_false, if_false, hmark, State.recordBreakFault_eq]

/-- Recording a crosspoint whose BREAK failed changes the fault table, the links and the reports alone. -/
theorem State.breakFaultRecorded_frame (s : State) (xp : Crosspoint) :
    s.breakFaultRecorded xp =
      { s with
        faults := (s.breakFaultRecorded xp).faults, links := (s.breakFaultRecorded xp).links,
        reports := (s.breakFaultRecorded xp).reports, reportsLost := (s.breakFaultRecorded xp).reportsLost } := by
  simp only [State.breakFaultRecorded, State.linkTakenOut, State.report_eq]
  split_ifs <;> rfl

/-- The end of a BREAK leaves all but the outstanding list, its record's path, the fault table, the links and the reports. -/
theorem breakEnd_frame {s v : State} {x : Circuit} {xp : Crosspoint} {rest : List Outstanding} {i : Instr}
    (hi : breakEnd s v x xp rest i) :
    v = { s.responded x xp .unmade rest with
          faults := v.faults, links := v.links, reports := v.reports, reportsLost := v.reportsLost } := by
  rcases hi with ⟨-, rfl⟩ | ⟨-, rfl⟩
  · rfl
  · exact State.breakFaultRecorded_frame _ xp

/-- Settles O59: the break job goes on with the last crosspoint made. -/
theorem breakGoesOn : Obligations.BreakGoesOn := by
  unfold Obligations.BreakGoesOn
  intro s v x xp xm rest i hp hcycles hawaits hstate hi hmade
  have hframe := breakEnd_frame hi
  have htx : v.txQueue = s.txQueue := by rw [hframe]; rfl
  refine ⟨_, exec_breakEnd hp hawaits hstate hi, ?_⟩
  rw [State.breakNext, hmade, ← htx]
  exact State.askPort_arbiterOnly (v.issueBreak x xm) (show v.cycles = [] by rw [hframe]; exact hcycles)

/-! ## The end of the break job (R7, R37, R49, R128, R129) -/

/-- `v` with the links and lines of circuit `x` free, its record replaced, and the hold queue as given. -/
def State.pathReleased (v : State) (x : Circuit) (r : CallRecord) (held : List Ticket) (seq : Nat)
    (waiters : List (Circuit × TicketBody)) : State :=
  { v with
    links := (v.releaseRequest x).links, lines := (v.freeLines x).lines, records := v.records.set x.val r x.isLt,
    holdQueue := held, seqCounter := seq, closingWaiters := waiters }

/-- A record in GUARD with its fields clear and 300 ms to run (R23, R49). -/
def guardRecord : CallRecord := { CallRecord.blank .guarded with guardTimer := some 1228800 }

/-- A record in CLOSING: its lines and path absent, the other fields kept (R23). -/
def closingRecord (r : CallRecord) : CallRecord := { r with state := .closing, calling := none, called := none, path := [] }

theorem State.freeLines_releaseRequest (v : State) (x : Circuit) : ((v.releaseRequest x).freeLines x).lines = (v.freeLines x).lines :=
  State.freeLines_congr rfl rfl

theorem State.breakComplete_noTicket {v : State} {x : Circuit} (h : (v.record x).yieldsTicket = false) :
    v.breakComplete x = v.pathReleased x guardRecord v.holdQueue v.seqCounter v.closingWaiters := by
  rw [State.breakComplete_plain v x h, State.freeLines_eq, State.freeLines_releaseRequest]
  rfl

/-- A ticket that finds a place of the hold queue (R129). -/
theorem State.breakComplete_held {v : State} {x : Circuit} (h : (v.record x).yieldsTicket = true) (hroom : v.holdQueue.length < 8) :
    v.breakComplete x =
      v.pathReleased x guardRecord (v.holdQueue ++ [{ seq := v.seqCounter, body := composeTicket x (v.record x) }])
        ((v.seqCounter + 1) % 65536) v.closingWaiters := by
  rw [State.breakComplete, h, State.freeLines_eq, State.freeLines_releaseRequest]
  simp only [if_true]
  rw [State.offerTicket, if_pos (by exact hroom)]
  simp [State.enterGuard, State.enterHoldQueue, State.setRecord, State.pathReleased, State.releaseRequest, guardRecord,
    Config.releaseGuardPeriods]

/-- A ticket that finds the hold queue full: its record waits in CLOSING (R128). -/
theorem State.breakComplete_closing {v : State} {x : Circuit} (h : (v.record x).yieldsTicket = true) (hfull : 8 ≤ v.holdQueue.length) :
    v.breakComplete x =
      v.pathReleased x (closingRecord (v.record x)) v.holdQueue v.seqCounter
        (v.closingWaiters ++ [(x, composeTicket x (v.record x))]) := by
  rw [State.breakComplete, h, State.freeLines_eq, State.freeLines_releaseRequest]
  simp only [if_true]
  rw [State.offerTicket, if_neg (by exact Nat.not_lt.mpr hfull)]
  simp [State.enterClosing, State.setRecord, State.pathReleased, State.releaseRequest, closingRecord, State.record]

theorem CallRecord.yieldsTicket_iff (r : CallRecord) : r.yieldsTicket = true ↔ r.ticket = true ∧ r.stamp ≠ none := by
  simp [CallRecord.yieldsTicket, Option.isSome_iff_ne_none]

/-- What the end of a break job makes of the record and the hold queue of `s` (R37, R125, R128, R129). -/
structure State.BreakOutcome (s : State) (x : Circuit) (r : CallRecord) (held : List Ticket) (seq : Nat)
    (waiters : List (Circuit × TicketBody)) : Prop where
  guarded : ¬ ((s.record x).ticket = true ∧ (s.record x).stamp ≠ none) ∨ s.holdQueue.length < 8 →
    r = guardRecord ∧ waiters = s.closingWaiters
  noTicket : ¬ ((s.record x).ticket = true ∧ (s.record x).stamp ≠ none) → held = s.holdQueue ∧ seq = s.seqCounter
  room : (s.record x).ticket = true ∧ (s.record x).stamp ≠ none → s.holdQueue.length < 8 →
    held = s.holdQueue ++ [{ seq := s.seqCounter, body := composeTicket x (s.record x) }] ∧ seq = (s.seqCounter + 1) % 65536
  full : (s.record x).ticket = true ∧ (s.record x).stamp ≠ none → 8 ≤ s.holdQueue.length →
    held = s.holdQueue ∧ seq = s.seqCounter ∧ waiters = s.closingWaiters ++ [(x, composeTicket x (s.record x))] ∧
      r = closingRecord (s.record x)

/-- The end of the break job of `v`, by whether a ticket is owed and finds a place. -/
theorem State.breakComplete_outcome (v : State) (x : Circuit) : ∃ r held seq waiters,
    v.breakComplete x = v.pathReleased x r held seq waiters ∧ v.BreakOutcome x r held seq waiters := by
  by_cases howes : (v.record x).ticket = true ∧ (v.record x).stamp ≠ none
  · have hyields := (v.record x).yieldsTicket_iff.mpr howes
    by_cases hroom : v.holdQueue.length < 8
    · exact ⟨_, _, _, _, State.breakComplete_held hyields hroom,
        ⟨fun _ => ⟨rfl, rfl⟩, fun h => absurd howes h, fun _ _ => ⟨rfl, rfl⟩, fun _ h => absurd hroom (Nat.not_lt.mpr h)⟩⟩
    · exact ⟨_, _, _, _, State.breakComplete_closing hyields (Nat.not_lt.mp hroom),
        ⟨fun h => absurd (h.resolve_left (not_not.mpr howes)) hroom, fun h => absurd howes h, fun _ h => absurd h hroom,
          fun _ _ => ⟨rfl, rfl, rfl, rfl⟩⟩⟩
  · have hno : (v.record x).yieldsTicket = false := Bool.eq_false_of_iff (v.record x).yieldsTicket_iff howes
    exact ⟨_, _, _, _, State.breakComplete_noTicket hno,
      ⟨fun _ => ⟨rfl, rfl⟩, fun _ => ⟨rfl, rfl⟩, fun h => absurd h howes, fun h => absurd h howes⟩⟩

/-- The ticket of a record, field by field (R126, R127). -/
theorem composeTicket_fields (x : Circuit) (r : CallRecord) : let b := composeTicket x r
    b.circuit = x ∧ b.cause = r.cause ∧ b.calling = r.calling ∧ b.called = r.called ∧ b.distBand = r.distBand ∧
      b.paid = r.paid ∧ b.credit = r.credit ∧ b.owed = r.owed ∧ b.coin = r.coin ∧ b.detailed = r.detailed ∧
      b.timeUnset = r.timeUnsetAtAnswer ∧ b.bandChanged = r.bandChanged ∧ b.calledClearSeen = r.calledClearSeen ∧
      b.reAnswer = r.reAnswer ∧ b.payToneSent = r.payToneSent ∧ b.creditAdded = r.creditAdded ∧
      b.duration = min 65535 (r.duration / 10) ∧ b.longCall = decide (65535 < r.duration / 10) ∧
      (∀ st, r.stamp = some st → b.bandAtAnswer = st.band) ∧
      ∀ st m n, r.stamp = some st → st.time = some (m, n) → b.answerMinute = m ∧ b.answerSecond = n := by
  have hduration : (composeTicket x r).duration = min 65535 (r.duration / 10) := by
    simp only [composeTicket, ticketSeconds]
    split <;> omega
  refine ⟨rfl, rfl, rfl, rfl, rfl, rfl, rfl, rfl, rfl, rfl, rfl, rfl, rfl, rfl, rfl, rfl, hduration, rfl, fun st hst => ?_,
    fun st m n hst htime => ?_⟩
  · simp only [composeTicket, CallRecord.bandAtAnswer, hst]
  · simp [composeTicket, hst, htime]

/-- Settles O60: the last BREAK frees the path, and the ticket owed is held or waits. -/
theorem lastBreakFreesAndTickets : Obligations.LastBreakFreesAndTickets := by
  unfold Obligations.LastBreakFreesAndTickets
  intro s v x xp rest i hp hcycles hawaits hstate hi hmade
  have hexec := exec_breakEnd hp hawaits hstate hi
  have hframe := breakEnd_frame hi
  have hv : v.record x = { s.record x with path := markPath (s.record x).path xp .unmade } := by
    rw [hframe]
    exact s.responded_record x xp .unmade rest
  have hvother : ∀ y, y ≠ x → v.record y = s.record y := fun y hy => by
    rw [hframe]
    exact State.responded_record_ne xp .unmade rest hy
  have hvline : ∀ l, v.line l = s.line l := fun l => by rw [hframe]; rfl
  have hvheld : v.holdQueue = s.holdQueue := by rw [hframe]; rfl
  have hvseq : v.seqCounter = s.seqCounter := by rw [hframe]; rfl
  have hvwaiters : v.closingWaiters = s.closingWaiters := by rw [hframe]; rfl
  have hvcycles : v.cycles = [] := by rw [hframe]; exact hcycles
  obtain ⟨r, held, seq, waiters, hcomplete, houtcome⟩ := v.breakComplete_outcome x
  obtain ⟨t, ht, harb⟩ : ∃ t, exec i s = .next t ∧ State.ArbiterOnly (v.pathReleased x r held seq waiters) t := by
    rw [State.breakNext, hmade] at hexec
    refine ⟨_, hexec, ?_⟩
    rw [← hcomplete]
    exact State.askPort_arbiterOnly _ (by rw [hcomplete]; exact hvcycles)
  obtain ⟨hguarded, hno, hroom, hfull⟩ := houtcome
  simp only [hv, hvheld, hvseq, hvwaiters] at hguarded hno hroom hfull
  have hlines : t.lines = (v.freeLines x).lines := harb.lines
  have hlinks : t.links = (v.releaseRequest x).links := harb.links
  have hrecords : t.records = v.records.set x.val r x.isLt := harb.records
  have hheld : t.holdQueue = held := by rw [harb]; rfl
  have hseq : t.seqCounter = seq := by rw [harb]; rfl
  have hwaiters : t.closingWaiters = waiters := by rw [harb]; rfl
  have hrecord : ∀ y, t.record y = if y = x then r else v.record y := fun y => by
    rw [State.record, hrecords]
    exact v.record_set x y r
  refine ⟨t, ht, fun gk => ?_, fun l => ?_, fun y hy => ?_, ?_, fun h => ?_, fun h => ?_, fun h => ⟨composeTicket x (s.record x),
    composeTicket_fields x (s.record x), fun hlt => ?_, fun hge => ?_⟩⟩
  · rw [State.link, hlinks]
    exact v.releaseRequest_link x gk
  · rw [← hvline, State.line, hlines]
    refine (v.freeLines_line x l).trans ?_
    rw [hv]
  · rw [hrecord, if_neg hy, hvother y hy]
  · rw [hlines, hlinks, hrecords, hheld, hseq, hwaiters]
    exact harb
  · obtain ⟨hr, hw⟩ := hguarded h
    rw [hrecord, if_pos rfl, hwaiters, hr, hw]
    exact ⟨rfl, rfl⟩
  · rw [hheld, hseq]
    exact hno h
  · rw [hheld, hseq]
    exact hroom h hlt
  · obtain ⟨h1, h2, h3, h4⟩ := hfull h hge
    rw [hheld, hseq, hwaiters, hrecord, if_pos rfl, h1, h2, h3, h4]
    exact ⟨rfl, rfl, rfl, rfl⟩

end Sys2Proof.Machine
end

section
/-!
PROOF. The re-hunt: a make failure moves the call to the first circuit that may be taken (O58).
-/

namespace Sys2Proof.Machine

set_option Elab.async false

/-! ## Clearing a record that was not answered (R36, R37, R64) -/

/-- `t` is `w` after record `x`, unanswered and without lines, has entered CLEARING: its break job has begun, or is complete at
once. -/
structure State.FailedCleared (w t : State) (x : Circuit) (c : ClearCause) : Prop where
  made : ∀ xm, nextMade (w.record x).path = some xm →
    t.record x =
        { w.record x with
          state := .clearing, cause := some c, settle := none, calledClear := none, grace := none, releasePending := false,
          path := markPath (w.record x).path xm .inFlight } ∧
      t.txQueue = w.txQueue.filter (fun d => d ≠ .payTone x) ++ [.breakCmd x xm]
  unmade : nextMade (w.record x).path = none →
    t.record x = guardRecord ∧ t.txQueue = w.txQueue.filter fun d => d ≠ .payTone x
  others : ∀ z, z ≠ x → t.record z = w.record z
  lines : ∀ l, t.line l = w.line l
  links : ∀ gk, t.link gk =
    if nextMade (w.record x).path = none ∧ (w.link gk).holder = some x then { w.link gk with holder := none } else w.link gk
  rest : State.ArbiterOnly
    (({ w with records := t.records, lines := t.lines, links := t.links, txQueue := t.txQueue } : State).report (.clear x c)) t

theorem State.clearedTo_record (w : State) (x y : Circuit) (c : ClearCause) (xm : Crosspoint) :
    (w.clearedTo x c xm).record y =
      if y = x then
        { w.record x with
          state := .clearing, cause := some c, settle := none, calledClear := none, grace := none, releasePending := false,
          path := markPath (w.record x).path xm .inFlight }
      else w.record y := by
  rw [State.clearedTo, State.report_eq]
  exact w.record_set x y _

theorem State.failedCleared_made {w : State} {x : Circuit} (c : ClearCause) {xm : Crosspoint}
    (h : nextMade (w.record x).path = some xm) : w.FailedCleared (w.clearedTo x c xm) x c where
  made := fun xm' h' => by
    obtain rfl : xm = xm' := Option.some.inj (h.symm.trans h')
    rw [State.clearedTo_record, if_pos rfl, State.clearedTo, State.report_eq]
    exact ⟨rfl, rfl⟩
  unmade := fun h' => by rw [h] at h'; cases h'
  others := fun z hz => by rw [State.clearedTo_record, if_neg hz]
  lines := fun l => by rw [State.clearedTo, State.report_eq]; rfl
  links := fun gk => by
    rw [h, if_neg fun h' => Option.some_ne_none xm h'.1, State.clearedTo, State.report_eq]
    rfl
  rest := by
    simp only [State.clearedTo, State.report_eq]
    rfl

theorem State.failedCleared_unmade {w t : State} {x : Circuit} {c : ClearCause} (h : nextMade (w.record x).path = none)
    (hcalling : (w.record x).calling = none) (hcalled : (w.record x).called = none) (ht : w.ClearedAtOnce t x c) :
    w.FailedCleared t x c where
  made := fun xm h' => by rw [h] at h'; cases h'
  unmade := fun _ => ⟨ht.record, by
    have hrest := ht.rest
    rw [State.report_eq] at hrest
    rw [hrest]⟩
  others := ht.others
  lines := fun l => by
    rw [ht.lines, hcalling, hcalled, if_neg]
    simp [calledLine]
  links := fun gk => by
    rw [ht.links]
    simp only [h, true_and]
  rest := by
    have hrest := ht.rest
    rw [State.report_eq] at hrest ⊢
    rw [State.ArbiterOnly] at hrest ⊢
    rw [hrest]

theorem State.enterClearing_failed {w : State} {x : Circuit} (c : ClearCause) (hstamp : (w.record x).stamp = none)
    (hcalling : (w.record x).calling = none) (hcalled : (w.record x).called = none) :
    w.FailedCleared (w.enterClearing x c) x c := by
  cases h : nextMade (w.record x).path with
  | some xm =>
    rw [State.enterClearing_made w x c xm h]
    exact State.failedCleared_made c h
  | none => exact State.failedCleared_unmade h hcalling hcalled (State.enterClearing_unmade w x c h hstamp)

/-! ## The move of a call (R59, R60) -/

/-- `v` after the call of record `x` has been taken on circuit `y` and the operate slot passed on, the failed record keeping its path
alone (R59). -/
def State.callPassed (v : State) (cp : Cord) (gp : Vector (Fin 8) 3) (x y : Circuit) (m : CallRecord) : State :=
  ((v.callTaken cp gp y m).setRecord x { CallRecord.blank .setting with path := (v.record x).path }).passSlot x y

section CallPassed

variable (v : State) (cp : Cord) (gp : Vector (Fin 8) 3) {x y : Circuit} (m : CallRecord) (hxy : y ≠ x)

theorem State.callPassed_eq :
    v.callPassed cp gp x y m =
      { v with
        cordPtr := cp, groupPtrs := gp,
        records := (v.records.set y.val m y.isLt).set x.val { CallRecord.blank .setting with path := (v.record x).path } x.isLt,
        lines := (v.callTaken cp gp y m).lines, links := (v.callTaken cp gp y m).links,
        operateSlots := v.operateSlots.map fun o => if o = some x then some y else o } := by
  rw [State.callPassed, State.callTaken_eq]
  rfl

theorem State.callPassed_failed : (v.callPassed cp gp x y m).record x = { CallRecord.blank .setting with path := (v.record x).path } := by
  rw [State.callPassed_eq]
  exact State.record_set_same { v with records := v.records.set y.val m y.isLt } x _

include hxy

theorem State.callPassed_moved : (v.callPassed cp gp x y m).record y = m := by
  rw [State.callPassed_eq]
  exact (State.record_setRecord_ne { v with records := v.records.set y.val m y.isLt } x y _ hxy).trans (v.record_set_same y m)

omit hxy in
theorem State.callPassed_others {z : Circuit} (hx : z ≠ x) (hy : z ≠ y) : (v.callPassed cp gp x y m).record z = v.record z := by
  rw [State.callPassed_eq]
  exact (State.record_setRecord_ne { v with records := v.records.set y.val m y.isLt } x z _ hx).trans
    (State.record_setRecord_ne v y z _ hy)

end CallPassed

/-- The record to which the call of `r` moves, before its make job (R59). -/
def rehuntedRecord (r : CallRecord) (called : Called) (p : Path) : CallRecord :=
  { CallRecord.blank .reserved with
    calling := r.calling, called := some called, distBand := r.distBand, coin := r.coin, detailed := r.detailed,
    ticket := r.ticket, boundSlot := r.boundSlot, rehuntUsed := true, path := p }

/-- A call that has moved: the failed record cleared and the new make job begun (R59, R60). -/
theorem State.callPassed_callMoved {v t : State} {cp : Cord} {gp : Vector (Fin 8) 3} {x y : Circuit} {p : Path} {called : Called}
    (hxy : y ≠ x) (hp : freshPath p) (hcycles : v.cycles = [])
    (ht : t = (((v.callPassed cp gp x y (rehuntedRecord (v.record x) called p)).enterClearing x .pathFault).startMakeJob y).askPort) :
    t.cordPtr = cp ∧ t.groupPtrs = gp ∧ v.CallMoved t x y p called := by
  let m := rehuntedRecord (v.record x) called p
  have hwfailed := v.callPassed_failed cp gp (x := x) (y := y) m
  have hwmoved := v.callPassed_moved cp gp m hxy
  have hwothers := fun z => v.callPassed_others cp gp (x := x) (y := y) m (z := z)
  have hweq := v.callPassed_eq cp gp (x := x) (y := y) m
  have hcleared := State.enterClearing_failed (w := v.callPassed cp gp x y m) (x := x) .pathFault (by rw [hwfailed]; rfl)
    (by rw [hwfailed]; rfl) (by rw [hwfailed]; rfl)
  generalize hw : v.callPassed cp gp x y m = w at *
  generalize he : w.enterClearing x .pathFault = e at *
  have hey : e.record y = m := by rw [hcleared.others y hxy, hwmoved]
  have hstart := State.startMakeJob_fresh (s := e) (x := y) (by rw [hey]; exact hp)
  rw [hey] at hstart
  have hrest := hcleared.rest
  rw [State.report_eq, hweq] at hrest
  have hecp : e.cordPtr = cp := by rw [hrest]
  have hegp : e.groupPtrs = gp := by rw [hrest]
  have heops : e.operateSlots = v.operateSlots.map fun o => if o = some x then some y else o := by rw [hrest]
  have hecycles : e.cycles = [] := by rw [hrest]; exact hcycles
  have hwline : ∀ l, w.line l = (v.callTaken cp gp y m).line l := fun l => by rw [hweq]; rfl
  have hwlink : ∀ gk, w.link gk = (v.callTaken cp gp y m).link gk := fun gk => by rw [hweq]; rfl
  have hwtx : w.txQueue = v.txQueue := by rw [hweq]
  generalize hu : e.startMakeJob y = u at *
  have harb : State.ArbiterOnly u t := by
    rw [ht]
    exact State.askPort_arbiterOnly u (by rw [hstart]; exact hecycles)
  have hux : u.record x = e.record x := by rw [hstart]; exact State.record_setRecord_ne e y x _ hxy.symm
  have hutx : u.txQueue = e.txQueue ++ firstMake y p := by rw [hstart]; rfl
  have hpath : (w.record x).path = (v.record x).path := by rw [hwfailed]
  refine ⟨by rw [harb.cordPtr, hstart]; exact hecp, by rw [harb.groupPtrs, hstart]; exact hegp, ?_⟩
  exact {
    moved := by
      rw [harb.record, hstart]
      exact State.record_set_same e y _
    failed := fun xm hmade => by
      obtain ⟨hex, hetx⟩ := hcleared.made xm (by rw [hpath]; exact hmade)
      rw [harb.record, hux, hex, harb.txQueue, hutx, hetx, hwfailed, hwtx]
      exact ⟨rfl, rfl⟩
    failedAtOnce := fun hmade => by
      obtain ⟨hex, hetx⟩ := hcleared.unmade (by rw [hpath]; exact hmade)
      rw [harb.record, hux, hex, harb.txQueue, hutx, hetx, hwtx]
      exact ⟨rfl, rfl⟩
    others := fun z hzx hzy => by
      rw [harb.record, hstart, ← hwothers z hzx hzy, ← hcleared.others z hzx]
      exact State.record_setRecord_ne e y z _ hzy
    lines := fun l => by
      have hul : u.line l = e.line l := by rw [hstart]; rfl
      rw [harb.line, hul, hcleared.lines, hwline, State.callTaken_line]
      rfl
    links := fun gk => by
      have hul : u.link gk = e.link gk := by rw [hstart]; rfl
      rw [harb.link, hul, hcleared.links, hwlink, State.callTaken_link, hpath]
      by_cases hgk : gk ∈ p.map fun q => crosspointLink q.xp
      · have hheld : ¬ (nextMade (v.record x).path = none ∧ some y = some x) := fun h => hxy (Option.some.inj h.2)
        have hgk' : gk ∈ m.path.map fun q => crosspointLink q.xp := hgk
        simp only [if_pos hgk', if_pos hgk, if_neg hheld]
      · have hgk' : gk ∉ m.path.map fun q => crosspointLink q.xp := hgk
        simp only [if_neg hgk', if_neg hgk]
    slots := by rw [harb.operateSlots, hstart]; exact heops
    rest := by
      rw [harb.records, harb.lines, harb.links, harb.operateSlots, harb.txQueue, harb.cordPtr, harb.groupPtrs]
      refine State.ArbiterOnly.trans (t := u) ?_ harb
      rw [State.report_eq, State.ArbiterOnly, hstart, hrest] }

/-! ## MAKE_FAIL and MAKE_TIMEOUT that a re-hunt saves (R58 to R60) -/

/-- The move of a call that a hunt has found a circuit for (R59). -/
theorem State.moveCall_eq {v : State} {x y : Circuit} {p : Path} {cp : Cord} {gp : Vector (Fin 8) 3} {called : Called}
    (hrecord : movedRecord (v.record x) y p = rehuntedRecord (v.record x) called p)
    (hline : calledLine (v.record x).called = calledLine (some called)) :
    v.moveCall x { circuit := y, path := p, after := ({ v with cordPtr := cp, groupPtrs := gp } : State).holdLinks y p } =
      ((v.callPassed cp gp x y (rehuntedRecord (v.record x) called p)).enterClearing x .pathFault).startMakeJob y := by
  simp only [State.moveCall, hrecord, hline]
  rfl

/-- An event whose make failure is saved by a re-hunt (R58 to R60). -/
theorem exec_rehunted {s v : State} {i : Instr} {x y : Circuit} {p : Path} {cp : Cord} {gp : Vector (Fin 8) 3} {called : Called}
    (hexec : exec i s = .next (v.afterMakeFailure x).askPort) (hpending : (v.record x).releasePending = false)
    (hunused : (v.record x).rehuntUsed = false)
    (hhunt : v.rehunt x =
      some { circuit := y, path := p, after := ({ v with cordPtr := cp, groupPtrs := gp } : State).holdLinks y p })
    (hrecord : movedRecord (v.record x) y p = rehuntedRecord (v.record x) called p)
    (hline : calledLine (v.record x).called = calledLine (some called)) (hxy : y ≠ x) (hp : freshPath p) (hcycles : v.cycles = []) :
    ∃ t, exec i s = .next t ∧ t.cordPtr = cp ∧ t.groupPtrs = gp ∧ v.CallMoved t x y p called := by
  have hafter : v.afterMakeFailure x =
      ((v.callPassed cp gp x y (rehuntedRecord (v.record x) called p)).enterClearing x .pathFault).startMakeJob y := by
    simp only [State.afterMakeFailure, hpending, hunused, Bool.false_eq_true, if_false, hhunt]
    exact State.moveCall_eq hrecord hline
  exact ⟨_, hexec, State.callPassed_callMoved hxy hp hcycles (by rw [hafter])⟩

theorem State.rehunt_cord {v : State} {x : Circuit} {la lb : Line} {n : Cord} (hx : x.val < 24)
    (hcalling : (v.record x).calling = some la) (hcalled : (v.record x).called = some (.line lb))
    (hn : v.movesToCord x la lb (v.cordPtr + n)) (hfirst : ∀ m, m < n → ¬ v.movesToCord x la lb (v.cordPtr + m)) :
    v.rehunt x = some {
      circuit := cordCircuit (v.cordPtr + n), path := localPath (v.cordPtr + n) la lb,
      after := ({ v with cordPtr := v.cordPtr + n + 1, groupPtrs := v.groupPtrs } : State).holdLinks
        (cordCircuit (v.cordPtr + n)) (localPath (v.cordPtr + n) la lb) } := by
  have hchoice : v.localChoice (failedExclusion x (v.record x).path) la lb = some (v.cordPtr + n) :=
    find_from (fun m => v.cordPtr + m) _ n ((v.movesToCord_iff x hx la lb _).mpr hn)
      fun m hm => Bool.eq_false_of_iff (v.movesToCord_iff x hx la lb _) (hfirst m hm)
  simp only [State.rehunt, circuitKind_local hx, hcalling, hcalled, calledLine, State.localHunt, hchoice]

theorem State.rehunt_junction {v : State} {x : Circuit} {la : Line} {g : JunctionGroup} {n : Fin 8} (hlo : 24 + 8 * g.val ≤ x.val)
    (hhi : x.val < 32 + 8 * g.val) (hcalling : (v.record x).calling = some la)
    (hn : v.movesToJunction x la g (v.groupPtrs[g] + n)) (hfirst : ∀ m, m < n → ¬ v.movesToJunction x la g (v.groupPtrs[g] + m)) :
    v.rehunt x = some {
      circuit := groupCircuit g (v.groupPtrs[g] + n), path := outgoingPath (groupCircuit g (v.groupPtrs[g] + n)) la,
      after := ({ v with
        cordPtr := v.cordPtr, groupPtrs := v.groupPtrs.set g.val (v.groupPtrs[g] + n + 1) g.isLt } : State).holdLinks
          (groupCircuit g (v.groupPtrs[g] + n)) (outgoingPath (groupCircuit g (v.groupPtrs[g] + n)) la) } := by
  have hx : 24 ≤ x.val := by omega
  have hx' : x.val < 48 := by omega
  have hgroup : groupOf x = g := Fin.ext (by simp only [groupOf]; omega)
  have hchoice : v.outgoingChoice (failedExclusion x (v.record x).path) la g = some (v.groupPtrs[g] + n) :=
    find_from (fun m => v.groupPtrs[g] + m) _ n ((v.movesToJunction_iff x hx hx' la g _).mpr hn)
      fun m hm => Bool.eq_false_of_iff (v.movesToJunction_iff x hx hx' la g _) (hfirst m hm)
  simp only [State.rehunt, circuitKind_outgoing hx hx', hcalling, hgroup, State.outgoingHunt, hchoice]

/-- Settles O58: the re-hunt finds the first circuit that may be taken, to which the call moves. -/
theorem makeFailureRehunts : Obligations.MakeFailureRehunts := by
  unfold Obligations.MakeFailureRehunts
  intro s x xp rest i mark cause la hp hcycles hawaits hstate hpending hunused hcalling hi
  have hexec := exec_makeFailure hp hawaits hstate hi
  have hrest := (s.responded x xp mark rest).makeFaultRecorded_rest xp cause
  have hrecord := s.responded_record x xp mark rest
  rw [← hrest.record x] at hrecord
  generalize (s.responded x xp mark rest).makeFaultRecorded xp cause = v at hexec hrest hrecord
  have hcp : v.cordPtr = s.cordPtr := hrest.cordPtr
  have hgp : v.groupPtrs = s.groupPtrs := hrest.groupPtrs
  have hvcalling : (v.record x).calling = some la := by rw [hrecord]; exact hcalling
  refine ⟨fun lb n hx hcalled hn hfirst => ?_, fun g n j k hlo hhi hcalled hn hfirst hk => ?_⟩
  · have hvcalled : (v.record x).called = some (.line lb) := by rw [hrecord]; exact hcalled
    have hhunt := State.rehunt_cord hx hvcalling hvcalled (by rw [hcp]; exact hn) (by rw [hcp]; exact hfirst)
    rw [← hcp, ← hgp]
    refine exec_rehunted hexec (by rw [hrecord]; exact hpending) (by rw [hrecord]; exact hunused) hhunt ?_ (by rw [hvcalled]) ?_
      (freshPath_local _ la lb) (hrest.cycles.trans hcycles)
    · have hkind : circuitKind (cordCircuit (v.cordPtr + n)) = .localCall := circuitKind_local (v.cordPtr + n).isLt
      simp [movedRecord, rehuntedRecord, hkind, hvcalled]
    · rw [hcp]
      exact hn.1
  · have hvcalled : (v.record x).called = some (.junction j) := by rw [hrecord]; exact hcalled
    have hhunt := State.rehunt_junction hlo hhi hvcalling (by rw [hgp]; exact hn) (by rw [hgp]; exact hfirst)
    rw [← hgp] at hk ⊢
    have hmovedRecord : movedRecord (v.record x) (groupCircuit g (v.groupPtrs[g] + n))
        (outgoingPath (groupCircuit g (v.groupPtrs[g] + n)) la) =
        rehuntedRecord (v.record x) (.junction k) (outgoingPath (groupCircuit g (v.groupPtrs[g] + n)) la) := by
      have hkind : circuitKind (groupCircuit g (v.groupPtrs[g] + n)) = .outgoing := by
        refine circuitKind_outgoing ?_ ?_ <;> simp only [groupCircuit] <;> omega
      have hjunction : junctionOf (groupCircuit g (v.groupPtrs[g] + n)) = k :=
        Fin.ext (by rw [junctionOf_groupCircuit, hk, groupCircuit]; simp only; omega)
      rw [movedRecord, if_pos hkind, hjunction]
      rfl
    obtain ⟨t, ht, htcp, htgp, hmoved⟩ := exec_rehunted (called := .junction k) hexec (by rw [hrecord]; exact hpending)
      (by rw [hrecord]; exact hunused) hhunt hmovedRecord (by rw [hvcalled]; rfl) (by rw [hgp]; exact hn.1) (freshPath_outgoing _ la)
      (hrest.cycles.trans hcycles)
    refine ⟨t, ht, htcp.trans hcp, fun h => ?_, hmoved⟩
    rw [htgp]
    exact groupPtrs_set _ g h _

end Sys2Proof.Machine
end

section
/-!
PROOF. The arbiter of the memory port: the order of its grants (O23).
-/

namespace Sys2Proof.Machine

set_option Elab.async false

/-! ## What raising requests leaves -/

theorem State.raiseRequests_owner (s : State) : s.raiseRequests.owner = s.owner := by rw [State.raiseRequests_eq]
theorem State.raiseRequests_accessLeft (s : State) : s.raiseRequests.accessLeft = s.accessLeft := by rw [State.raiseRequests_eq]
theorem State.raiseRequests_grantCount (s : State) : s.raiseRequests.grantCount = s.grantCount := by rw [State.raiseRequests_eq]
theorem State.raiseRequests_retryLine (s : State) : s.raiseRequests.retryLine = s.retryLine := by rw [State.raiseRequests_eq]
theorem State.raiseRequests_postPointer (s : State) : s.raiseRequests.postPointer = s.postPointer := by rw [State.raiseRequests_eq]
theorem State.raiseRequests_results (s : State) : s.raiseRequests.results = s.results := by rw [State.raiseRequests_eq]
theorem State.raiseRequests_cycles (s : State) : s.raiseRequests.cycles = s.cycles := by rw [State.raiseRequests_eq]

/-- The part is ready, its port without owner, and no burst has been asked for. -/
structure State.PortUnowned (s : State) : Prop where
  ready : s.phase = .ready
  owner : s.owner = .none
  burst : s.burst = .idle

/-- The port is unowned, and no cycle of the processor waits: the choice is among the requests of the 716. -/
structure State.PartTurn (s : State) : Prop extends State.PortUnowned s where
  cycles : s.cycles = []

/-- The hold queue gives no burst to ask for (R134). -/
def State.noBurst (s : State) : Prop := s.holdQueue = [] ∨ s.ringFull = true

/-- The Meter Engine asks when it can start a sequence (R98, R108). -/
theorem State.raiseMeter_eq {s : State} (h : s.meterRunning = false) :
    s.raiseMeter = { s with meterRequest := s.setMeterStartable || s.anyEligible || s.meterRequest } := by
  unfold State.raiseMeter
  rw [h]
  cases s.setMeterStartable <;> cases s.anyEligible <;> rfl

section Raise

variable {s : State} (h : s.PortUnowned)

include h

theorem State.PortUnowned.raised_burst (hheld : s.holdQueue ≠ []) (hfull : s.ringFull = false) :
    s.raiseRequests = { s with burst := .waiting, meterRequest := s.setMeterStartable || s.anyEligible || s.meterRequest } := by
  have hburst : s.raiseBurst = { s with burst := .waiting } := by simp [State.raiseBurst, hheld, hfull, h.burst]
  have hrunning : ({ s with burst := .waiting } : State).meterRunning = false := by simp [State.meterRunning, h.owner]
  have hready : s.isReady = true := by simp [State.isReady, h.ready]
  rw [State.raiseRequests, if_pos hready, hburst, State.raiseMeter_eq hrunning]
  rfl

theorem State.PortUnowned.raised_noBurst (hno : s.noBurst) :
    s.raiseRequests = { s with meterRequest := s.setMeterStartable || s.anyEligible || s.meterRequest } := by
  have hburst : s.raiseBurst = s := by
    unfold State.raiseBurst
    rcases hno with hno | hno <;> simp [hno]
  have hrunning : s.meterRunning = false := by simp [State.meterRunning, h.owner]
  have hready : s.isReady = true := by simp [State.isReady, h.ready]
  rw [State.raiseRequests, if_pos hready, hburst, State.raiseMeter_eq hrunning]

end Raise

/-! ## Grants of the 716 (R163, R164) -/

theorem State.grantPart_result {s : State} (h : s.results ≠ []) :
    s.grantPart = { s with grantCount := 0, owner := .resultWrite, accessLeft := Config.accessPeriods } := by
  simp [State.grantPart, h]

theorem State.grantPart_burst {s : State} (h : s.results = []) (hb : s.burst = .waiting) :
    s.grantPart =
      { s with grantCount := 0, burst := .writing, owner := .ticketBurst, accessLeft := 8 * Config.accessPeriods } := by
  simp [State.grantPart, h, hb]

theorem State.grantPart_meter {s : State} (h : s.results = []) (hb : s.burst = .idle) :
    s.grantPart = ({ s with grantCount := 0 } : State).grantMeter := by
  simp [State.grantPart, h, hb]

/-- With no processor cycle a request of the 716 that takes the port is the arbiter's choice (R163). -/
theorem State.PartTurn.askPort_granted {s : State} (h : s.PartTurn) (hw : s.raiseRequests.partWaits = true)
    (hg : s.raiseRequests.grantPart.owner ≠ .none) : s.askPort = s.raiseRequests.grantPart.raiseRequests := by
  have hc := h.cycles
  have ho := h.owner
  have hwins : ¬ s.raiseRequests.processorWins = true := by
    simp [State.processorWins, State.processorWaits, State.raiseRequests_cycles, hc]
  rw [State.askPort, arbitrate_succ, if_neg (by rw [State.raiseRequests_owner, ho]; exact not_not.mpr rfl), if_neg hwins, if_pos hw,
    hc]
  exact arbitrate_owned false 2 hg

/-- What a choice of the arbiter gives the port: its owner, the grant count, and the poster's place. -/
structure State.Choice (t : State) (o : Owner) (retry : Option Line) (pointer : Line) : Prop where
  owner : t.owner = o
  count : t.grantCount = 0
  retry : t.retryLine = retry
  pointer : t.postPointer = pointer

theorem State.choice_raised {g : State} {o : Owner} {retry : Option Line} {pointer : Line} (h : g.Choice o retry pointer) :
    g.raiseRequests.Choice o retry pointer :=
  ⟨g.raiseRequests_owner.trans h.owner, g.raiseRequests_grantCount.trans h.count, g.raiseRequests_retryLine.trans h.retry,
    g.raiseRequests_postPointer.trans h.pointer⟩

section Choices

variable {s : State} (h : s.PartTurn)

include h

theorem State.PartTurn.resultWrite (hr : s.results ≠ []) : s.askPort.Choice .resultWrite s.retryLine s.postPointer := by
  have hr' : s.raiseRequests.results ≠ [] := by rw [State.raiseRequests_results]; exact hr
  have hg := State.grantPart_result hr'
  rw [h.askPort_granted (by simp [State.partWaits, hr']) (by rw [hg]; exact Owner.noConfusion), hg]
  exact State.choice_raised ⟨rfl, rfl, s.raiseRequests_retryLine, s.raiseRequests_postPointer⟩

theorem State.PartTurn.ticketBurst (hr : s.results = []) (hheld : s.holdQueue ≠ []) (hfull : s.ringFull = false) :
    s.askPort.Choice .ticketBurst s.retryLine s.postPointer := by
  have hraised := h.raised_burst hheld hfull
  have hg := State.grantPart_burst (s := s.raiseRequests) (by rw [State.raiseRequests_results]; exact hr) (by rw [hraised])
  rw [h.askPort_granted (by rw [hraised]; simp [State.partWaits]) (by rw [hg]; exact Owner.noConfusion), hg]
  exact State.choice_raised ⟨rfl, rfl, s.raiseRequests_retryLine, s.raiseRequests_postPointer⟩

theorem State.PartTurn.setMeter (hr : s.results = []) (hno : s.noBurst) (hstart : s.setMeterStartable = true) :
    s.askPort.Choice .setMeter s.retryLine s.postPointer := by
  have hraised := h.raised_noBurst hno
  have hg := State.grantPart_meter (s := s.raiseRequests) (by rw [State.raiseRequests_results]; exact hr) (by rw [hraised]; exact h.burst)
  have hg' : s.raiseRequests.grantPart =
      { s with meterRequest := false, grantCount := 0, owner := .setMeter, accessLeft := 2 * Config.accessPeriods } := by
    rw [hg, hraised]
    exact if_pos hstart
  rw [h.askPort_granted (by rw [hraised]; simp [State.partWaits, hstart]) (by rw [hg']; exact Owner.noConfusion), hg']
  exact State.choice_raised ⟨rfl, rfl, rfl, rfl⟩

/-- The Meter Engine's grant goes to its poster (R163). -/
theorem State.PartTurn.poster (hr : s.results = []) (hno : s.noBurst) (hstart : s.setMeterStartable = false)
    (hany : s.anyEligible = true) {o : Owner} {retry : Option Line} {pointer : Line} (ho : o ≠ .none)
    (hchoice : ({ s with meterRequest := false, grantCount := 0 } : State).choosePosting.Choice o retry pointer) :
    s.askPort.Choice o retry pointer := by
  have hraised := h.raised_noBurst hno
  have hg := State.grantPart_meter (s := s.raiseRequests) (by rw [State.raiseRequests_results]; exact hr) (by rw [hraised]; exact h.burst)
  have hg' : s.raiseRequests.grantPart = ({ s with meterRequest := false, grantCount := 0 } : State).choosePosting := by
    rw [hg, hraised]
    exact if_neg (by rw [Bool.not_eq_true]; exact hstart)
  rw [h.askPort_granted (by rw [hraised]; simp [State.partWaits, hany]) (by rw [hg', hchoice.owner]; exact ho), hg']
  exact State.choice_raised hchoice

end Choices

/-! ## The poster's choice (R98) -/

theorem State.choosePosting_retry {s : State} {l : Line} (hc : s.grantCount = 0) (hl : s.retryLine = some l) (he : s.eligible l = true) :
    s.choosePosting.Choice (.posting { line := l, pulses := (s.line l).pulses, attempt := .retry }) none s.postPointer := by
  have hretry : s.retryChoice = some l := by simp [State.retryChoice, hl, he]
  simp only [State.choosePosting, hretry]
  exact ⟨rfl, hc, rfl, rfl⟩

theorem State.retryChoice_none {s : State} (h : ∀ l, s.retryLine = some l → s.eligible l = false) : s.retryChoice = none := by
  simp only [State.retryChoice, Option.filter_eq_none_iff]
  exact fun l hl => by rw [h l hl]; exact Bool.false_ne_true

theorem State.choosePosting_first {s : State} {n : Line} (hc : s.grantCount = 0) (hretry : s.retryChoice = none)
    (he : s.eligible (s.postPointer + n) = true) (hfirst : ∀ m, m < n → s.eligible (s.postPointer + m) = false) :
    s.choosePosting.Choice
      (.posting { line := s.postPointer + n, pulses := (s.line (s.postPointer + n)).pulses, attempt := .first }) s.retryLine
      (s.postPointer + n + 1) := by
  have hfind : s.postOrder.find? s.eligible = some (s.postPointer + n) :=
    find_from (fun m => s.postPointer + m) s.eligible n he hfirst
  simp only [State.choosePosting, hretry, hfind]
  exact ⟨rfl, hc, rfl, rfl⟩

/-- With an eligible line the poster chooses one (R98). -/
theorem State.choosePosting_some {s : State} (hc : s.grantCount = 0) (hany : s.anyEligible = true) : ∃ l att retry pointer,
    s.eligible l = true ∧
      s.choosePosting.Choice (.posting { line := l, pulses := (s.line l).pulses, attempt := att }) retry pointer := by
  cases hretry : s.retryChoice with
  | some l =>
    obtain ⟨hl, he⟩ := Option.filter_eq_some_iff.mp hretry
    exact ⟨l, _, _, _, he, State.choosePosting_retry hc hl he⟩
  | none =>
    cases hfind : s.postOrder.find? s.eligible with
    | some l =>
      refine ⟨l, .first, s.retryLine, l + 1, List.find?_some hfind, ?_⟩
      simp only [State.choosePosting, hretry, hfind]
      exact ⟨rfl, hc, rfl, rfl⟩
    | none =>
      obtain ⟨l, hl⟩ := s.anyEligible_iff.mp hany
      have hmem : l ∈ s.postOrder := List.mem_map.mpr ⟨l - s.postPointer, List.mem_finRange _, add_sub_cancel _ _⟩
      exact absurd hl (List.find?_eq_none.mp hfind l hmem)

/-- With no eligible line the poster hands its grant back (R98). -/
theorem State.choosePosting_none {s : State} (h : ∀ l, s.eligible l = false) : s.choosePosting = s := by
  have hretry : s.retryChoice = none := State.retryChoice_none fun l _ => h l
  have hfind : s.postOrder.find? s.eligible = none := List.find?_eq_none.mpr fun l _ => by rw [h l]; exact Bool.false_ne_true
  simp only [State.choosePosting, hretry, hfind]

/-- What every fact about a port for which nothing asks turns on: no request is raised. -/
theorem State.PortUnowned.raised_none {s : State} (h : s.PortUnowned) (hno : s.noBurst) (hstart : s.setMeterStartable = false)
    (hnone : ∀ l, s.eligible l = false) : s.raiseRequests = s := by
  have hany : s.anyEligible = false := Bool.eq_false_of_iff s.anyEligible_iff fun ⟨l, hl⟩ => by
    rw [hnone l] at hl
    cases hl
  rw [h.raised_noBurst hno, hstart, hany]
  rfl

theorem State.processorWins_none {s : State} (h : s.cycles = []) : ¬ s.processorWins = true := by
  simp [State.processorWins, State.processorWaits, h]

/-- An arbiter without requests does nothing. -/
theorem State.PartTurn.rests {s : State} (h : s.PartTurn) (hraised : s.raiseRequests = s) (hw : s.partWaits = false) (n : Nat) :
    arbitrate false (n + 1) s = s := by
  rw [arbitrate_succ, hraised, if_neg (not_not.mpr h.owner), if_neg (State.processorWins_none h.cycles),
    if_neg (by rw [hw]; exact Bool.false_ne_true)]

/-- A port for which nothing asks: a request made before is withdrawn, in a grant of the 716 (R98, R163, R164). -/
theorem State.PartTurn.unused {s : State} (h : s.PartTurn) (hr : s.results = []) (hno : s.noBurst)
    (hstart : s.setMeterStartable = false) (hnone : ∀ l, s.eligible l = false) :
    s.askPort.owner = .none ∧ s.askPort.meterRequest = false ∧ (s.meterRequest = true → s.askPort.grantCount = 0) := by
  have hraised := h.raised_none hno hstart hnone
  have hwaits : s.partWaits = s.meterRequest := by simp [State.partWaits, hr, h.burst]
  cases hrequest : s.meterRequest with
  | false =>
    have hrest : s.askPort = s := h.rests hraised (hwaits.trans hrequest) _
    rw [hrest]
    exact ⟨h.owner, hrequest, fun h => Bool.noConfusion h⟩
  | true =>
    let u : State := { s with meterRequest := false, grantCount := 0 }
    have hu : u.PartTurn := ⟨⟨h.ready, h.owner, h.burst⟩, h.cycles⟩
    have hgrant : s.grantPart = u := by
      rw [State.grantPart_meter hr h.burst]
      refine (if_neg ?_).trans (State.choosePosting_none (s := u) hnone)
      rw [Bool.not_eq_true]
      exact hstart
    have hrest : s.askPort = u := by
      rw [State.askPort, arbitrate_succ, hraised, if_neg (not_not.mpr h.owner), if_neg (State.processorWins_none h.cycles),
        if_pos (hwaits.trans hrequest), hgrant, h.cycles]
      exact hu.rests (hu.raised_none hno hstart hnone) (by simp [State.partWaits, u, hr, h.burst]) 2
    rw [hrest]
    exact ⟨h.owner, rfl, fun _ => rfl⟩

/-! ## The processor's grants (R162 to R164) -/

/-- The processor's cycle that takes the port is the arbiter's choice while its grants are below the limit (R163, R164). -/
theorem arbitrate_processor {s : State} {c : Cycle} {rest : List Cycle} (n : Nat) (ho : s.owner = .none) (hst : s.stretch = .none)
    (hc : s.cycles = c :: rest) (hg : s.grantCount < 8) (hp : s.isPassed c = true) :
    ∃ b m, arbitrate false (n + 2) s =
      { s with
        burst := b, meterRequest := m,
        grantCount := if s.raiseRequests.partWaits then s.grantCount + 1 else 0, owner := .passed, accessLeft := 2,
        stretch := .none, readPair := s.pairGranted c } := by
  have hraised := s.raiseRequests_eq
  have hwins : s.raiseRequests.processorWins = true := by
    rw [hraised]
    simp [State.processorWins, State.processorWaits, hc, hst, Config.grantLimit, hg]
  have hgrant := State.grantProcessor_passed s.raiseRequests c rest (s.raiseRequests_cycles.trans hc) (by rw [hraised]; exact hp)
  rw [arbitrate_succ, if_neg (by rw [State.raiseRequests_owner, ho]; exact not_not.mpr rfl), if_pos hwins, hgrant,
    arbitrate_owned false n (by exact Owner.noConfusion), State.raiseRequests_eq]
  rw [State.raiseRequests_grantCount]
  generalize s.raiseRequests.partWaits = w
  rw [hraised]
  exact ⟨_, _, rfl⟩

/-- The processor's cycle that memory completes in its event is performed in it (R162, R163). -/
theorem arbitrate_completed {s : State} {c : Cycle} {rest : List Cycle} (n : Nat) (ho : s.owner = .none) (hst : s.stretch = .none)
    (hc : s.cycles = c :: rest) (hg : s.grantCount < 8) :
    ∃ b m g, arbitrate true (n + 1) s =
      arbitrate true n (({ s with burst := b, meterRequest := m, grantCount := g } : State).performCycle c) := by
  have hraised := s.raiseRequests_eq
  have hwins : s.raiseRequests.processorWins = true := by
    rw [hraised]
    simp [State.processorWins, State.processorWaits, hc, hst, Config.grantLimit, hg]
  have hgrant : s.raiseRequests.grantProcessor true =
      ({ s.raiseRequests with
        grantCount := if s.raiseRequests.partWaits then s.raiseRequests.grantCount + 1 else 0 } : State).performCycle c := by
    have hcycles := s.raiseRequests_cycles.trans hc
    unfold State.grantProcessor
    split
    next c' rest' h =>
      obtain ⟨rfl, -⟩ : c' = c ∧ rest' = rest := by simpa [hcycles] using h.symm
      simp
    next h => rw [hcycles] at h; cases h
  rw [arbitrate_succ, if_neg (by rw [State.raiseRequests_owner, ho]; exact not_not.mpr rfl), if_pos hwins, hgrant]
  generalize (if s.raiseRequests.partWaits then s.raiseRequests.grantCount + 1 else 0) = g
  rw [hraised]
  exact ⟨_, _, g, rfl⟩

/-- With the processor held back a waiting result is the arbiter's choice (R163, R164). -/
theorem arbitrate_result {s : State} (whole : Bool) (n : Nat) (ho : s.owner = .none) (hr : s.results ≠ [])
    (hwins : ¬ s.raiseRequests.processorWins = true) :
    ∃ b m, arbitrate whole (n + 2) s =
      { s with burst := b, meterRequest := m, grantCount := 0, owner := .resultWrite, accessLeft := 2 } := by
  have hr' : s.raiseRequests.results ≠ [] := by rw [State.raiseRequests_results]; exact hr
  have hraised := s.raiseRequests_eq
  rw [arbitrate_succ, if_neg (by rw [State.raiseRequests_owner, ho]; exact not_not.mpr rfl), if_neg hwins,
    if_pos (by simp [State.partWaits, hr']), State.grantPart_result hr', arbitrate_owned whole n (by exact Owner.noConfusion),
    State.raiseRequests_eq, hraised]
  exact ⟨_, _, rfl⟩

/-- At the limit the processor does not win over a waiting result (R164). -/
theorem State.processorWins_limit {s : State} (hr : s.results ≠ []) (hg : 8 ≤ s.grantCount) : ¬ s.raiseRequests.processorWins = true := by
  have hr' : s.raiseRequests.results ≠ [] := by rw [State.raiseRequests_results]; exact hr
  have hg' : ¬ s.raiseRequests.grantCount < Config.grantLimit := by
    rw [State.raiseRequests_grantCount]
    exact Nat.not_lt.mpr hg
  simp [State.processorWins, State.partWaits, hr', hg']

theorem State.partWaits_result {s : State} (hr : s.results ≠ []) : s.raiseRequests.partWaits = true := by
  have hr' : s.raiseRequests.results ≠ [] := by rw [State.raiseRequests_results]; exact hr
  simp [State.partWaits, hr']

/-- The passed access that owns the port ends before the processor's next cycle (assumption log 8). -/
theorem State.endPassedAccess_passed {s : State} {c : Cycle} {rest : List Cycle} (ho : s.owner = .passed) (hc : s.cycles = c :: rest) :
    s.endPassedAccess = (s.performCycle c).freePort := by
  simp only [State.endPassedAccess, ho, if_true, State.passedAccessDone, hc]

/-- A read of a region that is passed to memory. -/
theorem State.performCycle_readOutside {s : State} {a : Word} (hready : s.phase = .ready) (h : s.map.region a = .outside) :
    s.performCycle (.read a false) = s.endCycle (.prdyWord (s.readMem a)) none := by
  simp only [State.performCycle, hready, State.readyRead, h, State.passRead, Bool.false_eq_true, if_false]

theorem State.isPassed_readOutside {s : State} {a : Word} {mperr : Bool} (hready : s.phase = .ready) (h : s.map.region a = .outside) :
    s.isPassed (.read a mperr) = true := by
  simp only [State.isPassed, hready, h]

theorem State.pairGranted_outside {s : State} {a : Word} {mperr : Bool} (h : s.map.region a = .outside) :
    s.pairGranted (.read a mperr) = s.readPair := by
  simp only [State.pairGranted, State.opensPair, h, ite_self]

theorem State.isPassed_readMeter {s : State} {a : Word} {mperr : Bool} {off : Nat} (hready : s.phase = .ready)
    (h : s.map.region a = .meter off) : s.isPassed (.read a mperr) = true := by
  simp only [State.isPassed, hready, h]

theorem State.pairGranted_word0 {s : State} {a : Word} {mperr : Bool} {l : Line} (hready : s.phase = .ready)
    (h : s.map.region a = .meter (2 * l.val)) : s.pairGranted (.read a mperr) = some l := by
  have hr : s.isReady = true := by simp [State.isReady, hready]
  simp only [State.pairGranted, State.opensPair, hr, if_true, h, meterPair_line]

theorem State.setMeterStartable_iff (s : State) :
    s.setMeterStartable = true ↔ ∃ j, s.setMeterJob = some j ∧ s.readPair ≠ some j.line := by
  cases h : s.setMeterJob <;> simp [State.setMeterStartable, h]

/-- What keeps a line from being posted (R98). -/
theorem State.eligible_false {s : State} {l : Line}
    (h : (s.line l).pulses = 0 ∨ s.readPair = some l ∨ (s.line l).fault = .parity ∨ (s.line l).fault = .corrupt) :
    s.eligible l = false := by
  refine Bool.eq_false_of_iff (s.eligible_iff l) fun ⟨hp, hf, hr⟩ => ?_
  rcases h with h | h | h | h
  · exact hp h
  · exact hr h
  · rw [h] at hf; rcases hf with hf | hf <;> cases hf
  · rw [h] at hf; rcases hf with hf | hf <;> cases hf

theorem State.setMeterStartable_none {s : State} (h : ∀ j, s.setMeterJob = some j → s.readPair = some j.line) :
    s.setMeterStartable = false :=
  Bool.eq_false_of_iff s.setMeterStartable_iff fun ⟨j, hj, hne⟩ => hne (h j hj)

/-- A grant of the port makes the grant count 0, whatever is granted (R164). -/
theorem State.PartTurn.count {s : State} (h : s.PartTurn) (howner : s.askPort.owner ≠ .none) : s.askPort.grantCount = 0 := by
  by_cases hr : s.results = []
  · by_cases hno : s.noBurst
    · cases hstart : s.setMeterStartable with
      | true => exact (h.setMeter hr hno hstart).count
      | false =>
        cases hany : s.anyEligible with
        | true =>
          obtain ⟨l, att, retry, pointer, -, hchoice⟩ :=
            State.choosePosting_some (s := { s with meterRequest := false, grantCount := 0 }) rfl hany
          exact (h.poster hr hno hstart hany Owner.noConfusion hchoice).count
        | false =>
          have hnone : ∀ l, s.eligible l = false := fun l => by
            rw [← Bool.not_eq_true]
            intro hl
            rw [s.anyEligible_iff.mpr ⟨l, hl⟩] at hany
            cases hany
          exact absurd (h.unused hr hno hstart hnone).1 howner
    · have hheld : s.holdQueue ≠ [] := fun e => hno (.inl e)
      have hfull : s.ringFull = false := by
        rw [← Bool.not_eq_true]
        exact fun e => hno (.inr e)
      exact (h.ticketBurst hr hheld hfull).count
  · exact (h.resultWrite hr).count

/-- A posting takes an eligible line with its whole pending count (R98). -/
theorem State.PartTurn.posting {s : State} (h : s.PartTurn) (hr : s.results = []) (hno : s.noBurst)
    (hstart : s.setMeterStartable = false) (hany : s.anyEligible = true) : ∃ l att, s.eligible l = true ∧
      s.askPort.owner = .posting { line := l, pulses := (s.line l).pulses, attempt := att } := by
  obtain ⟨l, att, retry, pointer, hl, hchoice⟩ :=
    State.choosePosting_some (s := { s with meterRequest := false, grantCount := 0 }) rfl hany
  exact ⟨l, att, hl, (h.poster hr hno hstart hany Owner.noConfusion hchoice).owner⟩

/-- The requests of the 716 in their order (R163), and what a posting takes (R98). -/
theorem State.PartTurn.order {s : State} (h : s.PartTurn) :
    (s.askPort.owner ≠ .none → s.askPort.grantCount = 0) ∧
    (s.results ≠ [] → s.askPort.owner = .resultWrite) ∧
    (s.results = [] → s.holdQueue ≠ [] → s.ringFull = false → s.askPort.owner = .ticketBurst) ∧
    (∀ j, s.results = [] → s.noBurst → s.setMeterJob = some j → s.readPair ≠ some j.line → s.askPort.owner = .setMeter) ∧
    (s.results = [] → s.noBurst → s.setMeterJob = none →
      (∀ p, s.askPort.owner = .posting p →
        p.pulses = (s.line p.line).pulses ∧ p.pulses ≠ 0 ∧ s.readPair ≠ some p.line ∧
        ((s.line p.line).fault = .none ∨ (s.line p.line).fault = .saturated)) ∧
      ((∃ l, (s.line l).pulses ≠ 0 ∧ s.readPair ≠ some l ∧ ((s.line l).fault = .none ∨ (s.line l).fault = .saturated)) →
        ∃ p, s.askPort.owner = .posting p) ∧
      ((∀ l, (s.line l).pulses = 0 ∨ s.readPair = some l ∨ (s.line l).fault = .parity ∨ (s.line l).fault = .corrupt) →
        s.askPort.owner = .none)) := by
  refine ⟨h.count, fun hr => (h.resultWrite hr).owner, fun hr hheld hfull => (h.ticketBurst hr hheld hfull).owner,
    fun j hr hno hj hpair => (h.setMeter hr hno (s.setMeterStartable_iff.mpr ⟨j, hj, hpair⟩)).owner, fun hr hno hj => ?_⟩
  have hstart : s.setMeterStartable = false := State.setMeterStartable_none fun j hj' => by rw [hj] at hj'; cases hj'
  refine ⟨fun p hp => ?_, fun ⟨l, hpulses, hpair, hfault⟩ => ?_, fun hnone =>
    (h.unused hr hno hstart fun l => State.eligible_false (hnone l)).1⟩
  · cases hany : s.anyEligible with
    | true =>
      obtain ⟨l, att, hl, howner⟩ := h.posting hr hno hstart hany
      obtain ⟨hpulses, hfault, hpair⟩ := (s.eligible_iff l).mp hl
      cases howner.symm.trans hp
      exact ⟨rfl, hpulses, hpair, hfault⟩
    | false =>
      have hnone : ∀ l, s.eligible l = false := fun l => by
        rw [← Bool.not_eq_true]
        intro hl
        rw [s.anyEligible_iff.mpr ⟨l, hl⟩] at hany
        cases hany
      cases (h.unused hr hno hstart hnone).1.symm.trans hp
  · obtain ⟨l', att, -, howner⟩ := h.posting hr hno hstart (s.anyEligible_iff.mpr ⟨l, (s.eligible_iff l).mpr ⟨hpulses, hfault, hpair⟩⟩)
    exact ⟨_, howner⟩

/-- The poster's retry line, its first eligible line from the pointer, or nothing (R98). -/
theorem State.PartTurn.posterOrder {s : State} (h : s.PartTurn) (hr : s.results = []) (hno : s.noBurst)
    (hpair : ∀ j, s.setMeterJob = some j → s.readPair = some j.line) :
    (∀ l, s.retryLine = some l → s.eligible l = true →
      s.askPort.Choice (.posting { line := l, pulses := (s.line l).pulses, attempt := .retry }) none s.postPointer) ∧
    (∀ n : Line, (∀ l, s.retryLine = some l → s.eligible l = false) → s.eligible (s.postPointer + n) = true →
      (∀ m, m < n → s.eligible (s.postPointer + m) = false) →
      s.askPort.Choice
        (.posting { line := s.postPointer + n, pulses := (s.line (s.postPointer + n)).pulses, attempt := .first }) s.retryLine
        (s.postPointer + n + 1)) := by
  have hstart := State.setMeterStartable_none hpair
  let u : State := { s with meterRequest := false, grantCount := 0 }
  refine ⟨fun l hl he => ?_, fun n hretry he hfirst => ?_⟩
  · exact h.poster hr hno hstart (s.anyEligible_iff.mpr ⟨l, he⟩) Owner.noConfusion
      (State.choosePosting_retry (s := u) rfl hl he)
  · exact h.poster hr hno hstart (s.anyEligible_iff.mpr ⟨_, he⟩) Owner.noConfusion
      (State.choosePosting_first (s := u) rfl (State.retryChoice_none (s := u) hretry) he hfirst)

theorem exec_passedRead_presented {s t : State} {a : Word} {later : Bool} (h : s.presentCycle (.read a false) later = t) :
    exec (.passedRead a ⟨false, later⟩) s = .next t := by
  rw [← h]
  rfl

/-- Settles O23: the arbiter's choices in their order, and its weighing of the processor. -/
theorem arbiterGrantsInOrder : Obligations.ArbiterGrantsInOrder := by
  unfold Obligations.ArbiterGrantsInOrder
  refine ⟨fun s hready hc ho hb => State.PartTurn.order ⟨⟨hready, ho, hb⟩, hc⟩, fun s hready hc ho hb hr hno hpair => ?_,
    fun s a mperr hready hc ho hst hg => ?_,
    fun s a b hready ho hc hr ha hb => ?_, fun s a hfree hready ha => ?_, fun s a hready hc ho hst hr ha => ?_⟩
  · have h : s.PartTurn := ⟨⟨hready, ho, hb⟩, hc⟩
    obtain ⟨hretry, hfirst⟩ := h.posterOrder hr hno hpair
    have heligible : ∀ l, (s.line l).pulses ≠ 0 ∧ s.readPair ≠ some l ∧
        ((s.line l).fault = .none ∨ (s.line l).fault = .saturated) ↔ s.eligible l = true := fun l => by
      rw [s.eligible_iff]
      tauto
    simp only [heligible, Bool.not_eq_true]
    refine ⟨fun l hl he => ?_, fun n hno he hlt => ?_, fun hnone => h.unused hr hno (State.setMeterStartable_none hpair) hnone⟩
    · obtain ⟨howner, -, hline, hpointer⟩ := hretry l hl he
      exact ⟨howner, hline, hpointer⟩
    · obtain ⟨howner, -, hline, hpointer⟩ := hfirst n hno he hlt
      exact ⟨howner, hpointer, hline⟩
  · have hfuel : 3 * s.cycles.length + 4 = 5 + 2 := by rw [hc]; rfl
    refine ⟨fun ha => ?_, fun l ha => ?_⟩
    · obtain ⟨b, m, he⟩ := arbitrate_processor 5 ho hst hc hg (State.isPassed_readOutside hready ha)
      rw [State.askPort, hfuel, he]
      exact ⟨rfl, rfl, rfl, rfl, State.pairGranted_outside ha⟩
    · obtain ⟨b, m, he⟩ := arbitrate_processor 5 ho hst hc hg (State.isPassed_readMeter hready ha)
      rw [State.askPort, hfuel, he]
      exact ⟨rfl, rfl, rfl, rfl, State.pairGranted_word0 hready ha⟩
  · let u : State := { s with
      ends := [.prdyWord (s.readMem a)], cycles := [.read b false], readPair := none, stretch := .none, owner := .none,
      accessLeft := 0 }
    have hpresent : s.presentCycle (.read b false) true = arbitrate false 7 u := by
      have hend : ({ s with ends := [] } : State).endPassedAccess =
          { s with ends := [.prdyWord (s.readMem a)], cycles := [], readPair := none, stretch := .none, owner := .none,
                   accessLeft := 0 } := by
        rw [State.endPassedAccess_passed (s := { s with ends := [] }) ho hc,
          State.performCycle_readOutside (s := { s with ends := [] }) hready ha, State.endCycle, State.freePort]
        simp only [hc, List.tail_cons, List.nil_append]
        rfl
      have hheld : s.isHeld = false := by simp [State.isHeld, hready]
      rw [State.presentCycle, hheld]
      simp only [Bool.false_eq_true, if_false, hend]
      rfl
    by_cases hg : s.grantCount < 8
    · obtain ⟨n, m, he⟩ := arbitrate_processor (s := u) 5 rfl rfl rfl hg (State.isPassed_readOutside hready hb)
      rw [if_pos (State.partWaits_result (s := u) hr)] at he
      exact ⟨_, exec_passedRead_presented (hpresent.trans he), rfl, rfl, fun _ => ⟨rfl, rfl, rfl⟩, fun h => absurd hg (Nat.not_lt.mpr h)⟩
    · obtain ⟨n, m, he⟩ := arbitrate_result (s := u) false 5 rfl hr (State.processorWins_limit hr (Nat.not_lt.mp hg))
      exact ⟨_, exec_passedRead_presented (hpresent.trans he), rfl, rfl, fun h => absurd h hg, fun _ => ⟨rfl, rfl⟩⟩
  · obtain ⟨hc, ho, hst, hg⟩ := hfree
    let u : State := { s with ends := [], cycles := [.read a false] }
    have hpresent : s.presentCycle (.read a false) true = arbitrate false 7 u := by
      simp [State.presentCycle, State.isHeld, hready, State.endPassedAccess, ho, hc, u]
    obtain ⟨n, m, he⟩ := arbitrate_processor (s := u) (c := .read a false) 5 ho hst rfl hg (State.isPassed_readOutside hready ha)
    refine ⟨_, exec_passedRead_presented (hpresent.trans he), rfl, fun hr => ?_, fun hr hb hno hm hpair hnone => ?_⟩
    · exact if_pos (State.partWaits_result (s := u) hr)
    · have hu : u.PortUnowned := ⟨hready, ho, hb⟩
      have hraised : u.raiseRequests = u :=
        hu.raised_none hno (State.setMeterStartable_none hpair) fun l => State.eligible_false (hnone l)
      refine if_neg ?_
      rw [hraised]
      simp [State.partWaits, u, hr, hb, hm]
  · let u : State := { s with ends := [], cycles := [.read a false] }
    have hpresent : s.presentCycle (.read a false) false = arbitrate true 7 u := by
      simp [State.presentCycle, State.isHeld, hready, State.endPassedAccess, ho, hc, u]
    by_cases hg : s.grantCount < 8
    · obtain ⟨b, m, g, hperformed⟩ := arbitrate_completed (s := u) (c := .read a false) 6 ho hst rfl hg
      rw [State.performCycle_readOutside (s := { u with burst := b, meterRequest := m, grantCount := g }) hready ha] at hperformed
      obtain ⟨b', m', he⟩ := arbitrate_result (s := State.endCycle { u with burst := b, meterRequest := m, grantCount := g }
        (.prdyWord (s.readMem a)) none) true 4 ho hr (State.processorWins_none (by rw [State.raiseRequests_cycles]; rfl))
      exact ⟨_, exec_passedRead_presented (hpresent.trans (hperformed.trans he)), rfl, rfl, fun _ => ⟨rfl, rfl⟩, fun h => absurd hg (Nat.not_lt.mpr h)⟩
    · obtain ⟨n, m, he⟩ := arbitrate_result (s := u) true 5 ho hr (State.processorWins_limit hr (Nat.not_lt.mp hg))
      refine ⟨_, exec_passedRead_presented (hpresent.trans he), rfl, rfl, fun h => absurd h hg, fun _ => ⟨rfl, rfl⟩⟩

end Sys2Proof.Machine
end

section
/-!
PROOF. The ends of the 716's locked sequences: SET METER (O43), a posting and its faults (O44, O45), a result write (O41).
-/

namespace Sys2Proof.Machine

set_option Elab.async false

/-! ## The meter record (R96) -/

theorem meterAddr_one (m : RegionMap) (l : Line) : m.meterAddr l 1 = m.meterAddr l 0 + 1 := by
  simp only [RegionMap.meterAddr, regionAddr, Nat.add_zero, BitVec.ofNat_add, BitVec.add_assoc]
  rfl

theorem word_ne_succ (a : Word) : a ≠ a + 1 := by bv_omega

/-- What a write of a meter record leaves in a later state with that store (R96). -/
theorem State.writtenMeter {s t : State} (l : Line) {count wrap : Nat} (hstore : s.StoreInv) (hcount : count < 1048576)
    (hwrap : wrap < 256) (hmem : t.mem = (s.writeMeter l count wrap).mem) :
    let a := s.map.meter + BitVec.ofNat 16 (2 * l.val)
    (t.readMem a).toNat = count % 65536 ∧ (t.readMem (a + 1)).toNat = 256 * wrap + count / 65536 ∧
      ∀ b, b ≠ a → b ≠ a + 1 → t.readMem b = s.readMem b := by
  intro a
  have hone : s.map.meterAddr l 1 = a + 1 := meterAddr_one s.map l
  let u := s.writeMem a (meterWord0 count)
  have hu : t.mem = (u.writeMem (a + 1) (meterWord1 count wrap)).mem := by rw [hmem, State.writeMeter, hone]; rfl
  obtain ⟨h0, hne0⟩ := State.written (s := s) (t := u) a (meterWord0 count) hstore rfl
  obtain ⟨h1, hne1⟩ := State.written (s := u) (a + 1) (meterWord1 count wrap) (s.writeMem_wf a _ hstore) hu
  refine ⟨?_, ?_, fun b hb hb1 => by rw [hne1 b hb1, hne0 b hb]⟩
  · rw [hne1 a (word_ne_succ a), h0]
    exact toNat_ofNat_of_lt (by omega)
  · rw [h1]
    exact toNat_ofNat_of_lt (by omega)

/-- A meter record that holds count `c` and wrap count `w` reads as them, and valid (R96). -/
theorem meterRecord_read {w0 w1 : Word} {c w : Nat} (hc : c ≤ 999999) (h0 : w0.toNat = c % 65536)
    (h1 : w1.toNat = 256 * w + c / 65536) : meterCount w0 w1 = c ∧ meterWrap w1 = w ∧ meterValid w0 w1 = true := by
  have hlt := w1.isLt
  have hcount : meterCount w0 w1 = c := by
    rw [meterCount, bitField_eq, h0, h1]
    omega
  have hwrap : meterWrap w1 = w := by
    rw [meterWrap, bitField_eq, h1]
    omega
  have hunused : bitField w1 4 4 = 0 := by
    rw [bitField_eq, h1]
    omega
  refine ⟨hcount, hwrap, ?_⟩
  simp only [meterValid, hcount, hunused, Config.meterModulus, beq_self_eq_true, Bool.and_true, decide_eq_true_eq]
  omega

/-- What the end of a SET METER sequence leaves (R108, R109). -/
theorem State.setMeterDone_eq {s : State} {j : SetMeterJob} (hjob : s.setMeterJob = some j) :
    s.setMeterDone =
      { s with
        mem := (s.writeMeter j.line j.value 0).mem, setMeterJob := none,
        lines := s.lines.set j.line.val { s.line j.line with fault := .none } j.line.isLt,
        results := s.results ++ [{ slot := j.slot, code := .done, circuit := none }], owner := .none, accessLeft := 0 } := by
  simp only [State.setMeterDone, hjob, State.writeMeter, State.writeMem, State.modifyLine, State.setLine, State.line,
    State.handResult, State.freePort]

/-- What the end of a posting that writes `count` and `wrap` leaves (R99, R100). -/
theorem State.meterPosted_eq (s : State) (l : Line) (count wrap n : Nat) :
    ((s.writeMeter l count wrap).modifyLine l fun e => { e with pulses := e.pulses - n }).freePort =
      { s with
        mem := (s.writeMeter l count wrap).mem,
        lines := s.lines.set l.val { s.line l with pulses := (s.line l).pulses - n } l.isLt, owner := .none, accessLeft := 0 } := by
  simp only [State.writeMeter, State.writeMem, State.modifyLine, State.setLine, State.line, State.freePort]

/-- Settles O43: the record is written with the value, and the order answered. -/
theorem setMeterWritesRecord : Obligations.SetMeterWritesRecord := by
  unfold Obligations.SetMeterWritesRecord
  intro s j hready hstore hmap howner hjob hvalue hcycles
  have hdone : s.setMeterEvent = s.setMeterDone.askPort := if_pos howner
  obtain ⟨t, ht, harb⟩ : ∃ t, exec .setMeterWriteComplete s = .next t ∧ State.ArbiterOnly s.setMeterDone t := by
    refine ⟨_, (running_next State.setMeterEvent (by rw [hready]; exact Phase.noConfusion)).trans (congrArg _ hdone), ?_⟩
    exact State.askPort_arbiterOnly _ (by rw [State.setMeterDone_eq hjob]; exact hcycles)
  rw [State.setMeterDone_eq hjob] at harb
  have hwritten := State.writtenMeter (t := t) j.line (count := j.value) (wrap := 0) hstore (by omega) (by decide) harb.mem
  simp only [Nat.mul_zero, Nat.zero_add] at hwritten
  refine ⟨t, ht, ?_, hwritten⟩
  rw [harb.mem]
  exact harb.rebase

/-! ## A posting (R98 to R100) -/

theorem State.postingInProgress_posting {s : State} {p : Posting} (h : s.owner = .posting p) : s.postingInProgress = some p := by
  simp only [State.postingInProgress, h]

/-- Settles O44: the record read is written back with the pulses added. -/
theorem postingAddsPulses : Obligations.PostingAddsPulses := by
  unfold Obligations.PostingAddsPulses
  intro s p c w hready hstore hmap howner hcycles hpulses hc hw a h0 h1
  have hone : s.map.meterAddr p.line 1 = a + 1 := meterAddr_one s.map p.line
  obtain ⟨hcount, hwrap, hvalid⟩ := meterRecord_read hc h0 h1
  rw [← hone] at hcount hwrap hvalid
  let c' := if c + p.pulses < 1000000 then c + p.pulses else c + p.pulses - 1000000
  let w' := if c + p.pulses < 1000000 then w else min 255 (w + 1)
  have hc' : postedCount c p.pulses = c' := rfl
  have hw' : postedWrap c p.pulses w = w' := by
    have hcap : (if w = 255 then 255 else w + 1) = min 255 (w + 1) := by split <;> omega
    simp only [postedWrap, w', hcap]
    rfl
  have hdone : s.postingDone p =
      ((s.writeMeter p.line c' w').modifyLine p.line fun e => { e with pulses := e.pulses - p.pulses }).freePort := by
    rw [← hc', ← hw', ← hcount, ← hwrap]
    rfl
  have hevent : s.postingEndEvent = (s.postingDone p).askPort := by
    have hreads : s.meterReadsValid p.line = true := hvalid
    simp only [State.postingEndEvent, State.postingInProgress_posting howner, hreads, if_true]
  obtain ⟨t, ht, harb⟩ : ∃ t, exec .postingEnd s = .next t ∧ State.ArbiterOnly (s.postingDone p) t :=
    ⟨_, (running_next State.postingEndEvent (by rw [hready]; exact Phase.noConfusion)).trans (congrArg _ hevent),
      State.askPort_arbiterOnly _ hcycles⟩
  rw [hdone, State.meterPosted_eq] at harb
  have hlt : c' < 1048576 := by simp only [c']; split <;> omega
  have hlt' : w' < 256 := by simp only [w']; split <;> omega
  refine ⟨t, ht, ?_, State.writtenMeter (t := t) p.line hstore hlt hlt' harb.mem⟩
  rw [harb.mem]
  exact harb.rebase

/-! ## Faults found while posting (R102 to R105) -/

theorem State.postingFault_none {s : State} {l : Line} (found : MeterFault) (h : (s.line l).fault = .none) :
    s.postingFault l found = (s.setLine l { s.line l with fault := found }).report (.meterFault l found) := by
  simp only [State.postingFault, h]

theorem State.postingFault_saturated {s : State} {l : Line} (found : MeterFault) (h : (s.line l).fault = .saturated) :
    s.postingFault l found = (s.setLine l { s.line l with pulses := 0 }).report (.meterFault l found) := by
  simp only [State.postingFault, h]

theorem State.postingFault_cycles (s : State) (l : Line) (found : MeterFault) : (s.postingFault l found).cycles = s.cycles := by
  simp only [State.postingFault]
  split <;> simp [State.setLine]

/-- A fault found ends its posting (R103, R105). -/
theorem exec_postingFault {s : State} {p : Posting} {found : MeterFault} {i : Instr} (hready : s.phase = .ready)
    (howner : s.owner = .posting p) (hcycles : s.cycles = [])
    (hi : (i = .postingParityError ∧ p.attempt = .retry ∧ found = .parity) ∨
      (i = .postingRecordCorrupt ∧ s.meterReadsValid p.line = false ∧ found = .corrupt)) :
    ∃ t, exec i s = .next t ∧ State.ArbiterOnly (s.postingFault p.line found) t := by
  have hp : s.phase ≠ .held := by rw [hready]; exact Phase.noConfusion
  have harb : State.ArbiterOnly (s.postingFault p.line found) (s.postingFault p.line found).freePort.askPort :=
    (State.askPort_arbiterOnly (s.postingFault p.line found).freePort
      ((s.postingFault_cycles p.line found).trans hcycles)).rebase
  refine ⟨_, ?_, harb⟩
  rcases hi with ⟨rfl, hretry, rfl⟩ | ⟨rfl, hcorrupt, rfl⟩
  · refine (running_next State.postingParityEvent hp).trans ?_
    simp only [State.postingParityEvent, State.postingInProgress_posting howner, State.postingParity, hretry]
  · refine (running_next State.postingCorruptEvent hp).trans ?_
    simp only [State.postingCorruptEvent, State.postingInProgress_posting howner, hcorrupt, Bool.false_eq_true, if_false,
      State.postingCorrupt]

/-- `s` after the first attempt of a posting has ended: its line is the retry line, and the port is free (R102). -/
def State.retryAwaited (s : State) (l : Line) : State := { s with owner := .none, accessLeft := 0, retryLine := some l }

/-- The first attempt's parity error makes its line the retry line (R102). -/
theorem exec_postingParity_first {s : State} {p : Posting} (hready : s.phase = .ready) (howner : s.owner = .posting p)
    (hfirst : p.attempt = .first) : exec .postingParityError s = .next (s.retryAwaited p.line).askPort := by
  refine (running_next State.postingParityEvent (by rw [hready]; exact Phase.noConfusion)).trans ?_
  simp only [State.postingParityEvent, State.postingInProgress_posting howner, State.postingParity, hfirst]
  rfl

/-- While its read pair is open the retry line stays the retry line (R98, R102). -/
theorem State.grantPart_keepsRetry {s : State} {l : Line} (hretry : s.retryLine = some l) (hpair : s.readPair = some l) :
    s.grantPart.retryLine = some l := by
  have hchoose : ∀ u : State, u.retryLine = some l → u.readPair = some l → u.choosePosting.retryLine = some l := fun u hu hp => by
    have hno : u.retryChoice = none := State.retryChoice_none fun l' hl' => by
      obtain rfl : l = l' := Option.some.inj (hu.symm.trans hl')
      exact State.eligible_false (.inr (.inl hp))
    simp only [State.choosePosting, hno]
    split
    · exact hu
    · exact hu
  unfold State.grantPart State.grantMeter
  simp only
  split_ifs
  · exact hretry
  · exact hretry
  · exact hretry
  · exact hchoose _ hretry hpair

theorem arbitrate_keepsRetry {l : Line} (whole : Bool) : ∀ (n : Nat) (s : State), s.cycles = [] → s.retryLine = some l →
    s.readPair = some l → (arbitrate whole n s).retryLine = some l
  | 0, _, _, hretry, _ => hretry
  | n + 1, s, hc, hretry, hpair => by
    have hc' : s.raiseRequests.cycles = [] := s.raiseRequests_cycles.trans hc
    have hretry' : s.raiseRequests.retryLine = some l := s.raiseRequests_retryLine.trans hretry
    have hpair' : s.raiseRequests.readPair = some l := by rw [State.raiseRequests_eq]; exact hpair
    rw [arbitrate_succ, if_neg (State.processorWins_none hc')]
    split
    · exact hretry'
    · split
      · have hgrant := s.raiseRequests.grantPart_arbiterOnly
        exact arbitrate_keepsRetry whole n _ (hgrant.cycles.trans hc') (State.grantPart_keepsRetry hretry' hpair')
          (by rw [hgrant]; exact hpair')
      · exact hretry'

/-- Settles O45: the faults that a posting finds, and its retry. -/
theorem postingFaultsFound : Obligations.PostingFaultsFound := by
  unfold Obligations.PostingFaultsFound
  refine ⟨fun s p found i hready howner hcycles hi => ⟨fun hfault => ?_, fun hfault => ?_,
    fun q hq hfirst hr hheld hburst hjob hpulses hpair hfault => ?_⟩, fun s q hready howner hfirst => ?_⟩
  · obtain ⟨t, ht, harb⟩ := exec_postingFault hready howner hcycles hi
    rw [State.postingFault_none found hfault] at harb
    exact ⟨t, ht, harb⟩
  · obtain ⟨t, ht, harb⟩ := exec_postingFault hready howner hcycles hi
    rw [State.postingFault_saturated found hfault] at harb
    exact ⟨t, ht, harb⟩
  · let u : State := ({ s with owner := .posting q } : State).retryAwaited q.line
    have hturn : u.PartTurn := ⟨⟨hready, rfl, hburst⟩, hcycles⟩
    have he : u.eligible p.line = true := (u.eligible_iff p.line).mpr ⟨hpulses, hfault, hpair⟩
    have hno : ∀ j, u.setMeterJob ≠ some j := fun j hj => nomatch hjob.symm.trans hj
    have hchoice := (hturn.posterOrder hr (.inl hheld) fun j hj => absurd hj (hno j)).1 p.line (by rw [← hq]; rfl) he
    refine ⟨u.askPort, exec_postingParity_first (s := { s with owner := .posting q }) hready rfl hfirst, ?_, hchoice.owner,
      hchoice.pointer⟩
    exact (State.askPort_arbiterOnly u hcycles).rebase
  · let u : State := s.retryAwaited q.line
    have hexec := exec_postingParity_first hready howner hfirst
    have harb : s.cycles = [] → State.ArbiterOnly s u.askPort := fun hcycles => (State.askPort_arbiterOnly u hcycles).rebase
    refine ⟨fun hcycles hr => ?_, fun hcycles hr hburst hheld hfull => ?_, fun j hcycles hr hburst hno hj hpair => ?_,
      fun hcycles hpair => ?_, fun a hcycles hst ha hg => ?_⟩
    · obtain ⟨b, m, he⟩ := arbitrate_result (s := u) false (3 * s.cycles.length + 2) rfl hr
        (State.processorWins_none (u.raiseRequests_cycles.trans hcycles))
      have he' : u.askPort = _ := he
      refine ⟨u.askPort, hexec, harb hcycles, ?_, ?_⟩
      · rw [he']
      · rw [he']; rfl
    · have hturn : u.PartTurn := ⟨⟨hready, rfl, hburst⟩, hcycles⟩
      have hchoice := hturn.ticketBurst hr hheld hfull
      exact ⟨u.askPort, hexec, harb hcycles, hchoice.owner, hchoice.retry⟩
    · have hturn : u.PartTurn := ⟨⟨hready, rfl, hburst⟩, hcycles⟩
      have hchoice := hturn.setMeter hr hno (u.setMeterStartable_iff.mpr ⟨j, hj, hpair⟩)
      exact ⟨u.askPort, hexec, harb hcycles, hchoice.owner, hchoice.retry⟩
    · exact ⟨_, u.askPort, hexec, harb hcycles, rfl, arbitrate_keepsRetry false _ u hcycles rfl hpair⟩
    · obtain ⟨b, m, he⟩ := arbitrate_processor (s := u) (3 * s.cycles.length + 2) rfl hst hcycles hg
        (State.isPassed_readOutside hready ha)
      have he' : u.askPort = _ := he
      refine ⟨u.askPort, hexec, ?_, ?_, ?_⟩
      · rw [he', State.pairGranted_outside (s := u) ha, ← hst]
        rfl
      · rw [he']
      · rw [he']; rfl

end Sys2Proof.Machine
end

section
/-!
PROOF. A result write (O41).
-/

namespace Sys2Proof.Machine

set_option Elab.async false

/-! ## The result word (section 11.1) -/

theorem resultCode_eq (c : ResultCode) :
    c.code =
      match c with
      | .done => 1 | .connected => 2 | .callerBusy => 3 | .calledBusy => 4 | .unobtainable => 5 | .barred => 6
      | .congestion => 7 | .pathFault => 8 | .billingFull => 9 | .released => 10 | .notActive => 11 | .notCoin => 12
      | .clamped => 13 | .lineBusy => 14 | .pendingPulses => 15 | .notSpare => 16 | .badArgument => 17 | .badOrder => 18
      | .tableFull => 19 | .badLine => 20 := by
  cases c <;> rfl

theorem resultCode_le (c : ResultCode) : c.code ≤ 20 := by
  cases c <;> decide

theorem circuitField_eq (c : Option Circuit) : circuitField c = match c with | some x => x.val | none => 63 := by
  cases c <;> rfl

theorem circuitField_lt (c : Option Circuit) : circuitField c < 64 := by
  rcases c with _ | ⟨n, hn⟩
  · decide
  · exact Nat.lt_trans hn (by decide)

theorem resultWord_toNat (r : Result) : (resultWord r).toNat = 32768 + 1024 * r.code.code + circuitField r.circuit := by
  have hcode := resultCode_le r.code
  have hcircuit := circuitField_lt r.circuit
  exact toNat_ofNat_of_lt (by omega)

/-! ## The end of a result write (R151) -/

/-- `s` once its first result, `r`, stands in its slot: the slot is IDLE, and a dispatcher that waited on it is ready (R151). -/
def State.resultWritten (s : State) (r : Result) (rest : List Result) : State :=
  { s with
    mem := (s.writeMem (s.map.slotAddr r.slot 3) (resultWord r)).mem, slots := (s.setSlotState r.slot .idle).slots, results := rest,
    dispatcher := if s.dispatcher = .waiting r.slot then .ready else s.dispatcher, owner := .none, accessLeft := 0 }

theorem State.resultWriteDone_eq {s : State} {r : Result} {rest : List Result} (hr : s.results = r :: rest) :
    s.resultWriteDone = (s.resultWritten r rest).runDispatch := by
  simp only [State.resultWriteDone, hr]
  congr 1
  simp only [State.readyDispatcher]
  split <;> rename_i h
  · have hd : s.dispatcher = .waiting r.slot := h
    simp only [State.resultWritten, hd, if_true]
    rfl
  · have hd : s.dispatcher ≠ .waiting r.slot := h
    simp only [State.resultWritten, hd, if_false]
    rfl

theorem State.setSlotState_slot (s : State) (i j : OrderSlot) (x : SlotState) :
    (s.setSlotState i x).slot j = if j = i then { s.slot j with state := x } else s.slot j := by
  split <;> rename_i h
  · subst h
    exact s.slot_modifySlot_same j _
  · exact s.slot_modifySlot_ne i j _ h

theorem exec_resultWriteComplete {s : State} {r : Result} {rest : List Result} (hp : s.phase ≠ .held) (howner : s.owner = .resultWrite)
    (hr : s.results = r :: rest) : exec .resultWriteComplete s = .next (s.resultWritten r rest).runDispatch.askPort := by
  refine (running_next State.resultWriteEvent hp).trans ?_
  rw [State.resultWriteEvent, if_pos howner, State.resultWriteDone_eq hr]

/-- An order of a kind outside 1 to 13 (R148). -/
theorem applyOrder_unknown {e : OrderEntry} (h : e.kind.toNat = 0 ∨ 13 < e.kind.toNat) (s : State) :
    applyOrder e s = .result .badOrder none s := by
  have hlt := e.kind.isLt
  unfold applyOrder
  split
  case h_14 => rfl
  all_goals (rename_i heq; change e.kind.toNat = _ at heq; omega)

/-- `s` after its ready dispatcher took the order `e` of an unknown kind, `q` being left of the queue (R148, R150). -/
def State.badOrderTaken (s : State) (e : OrderEntry) (q : List OrderEntry) : State :=
  { s with
    orderQueue := q, slots := (s.setSlotState e.slot .inFlight).slots, dispatcher := .waiting e.slot, stretch := s.keepPlace.stretch,
    results := s.results ++ [{ slot := e.slot, code := .badOrder, circuit := none }] }

theorem State.runDispatch_unknown {s : State} {e : OrderEntry} {q : List OrderEntry} (hd : s.dispatcher = .ready)
    (hq : s.orderQueue = e :: q) (h : e.kind.toNat = 0 ∨ 13 < e.kind.toNat) : s.runDispatch = s.badOrderTaken e q := by
  have hkeep : ({ s with orderQueue := q } : State).keepPlace = { s with orderQueue := q, stretch := s.keepPlace.stretch } := by
    simp only [State.keepPlace]
    cases hst : s.stretch <;> simp only [← hst]
  have hdispatch : ({ s with orderQueue := q } : State).keepPlace.dispatch e = s.badOrderTaken e q := by
    simp only [State.dispatch, applyOrder_unknown h, State.badOrderTaken, hkeep]
    rfl
  rw [State.runDispatch, hq, List.length_cons, runDispatcher_take _ s e q hd hq, hdispatch]
  exact runDispatcher_waiting _ _ e.slot rfl

/-- The grant of a cycle that is not passed to memory (R162, R164). -/
theorem State.grantProcessor_performs (s : State) {c : Cycle} {rest : List Cycle} (hc : s.cycles = c :: rest)
    (hp : s.isPassed c = false) :
    s.grantProcessor false =
      ({ s with grantCount := if s.partWaits then s.grantCount + 1 else 0 } : State).performCycle c := by
  unfold State.grantProcessor
  split
  next c' rest' h =>
    obtain rfl : c' = c := (List.cons.inj (h.symm.trans hc)).1
    exact if_neg (show ¬ (s.isPassed c' && !false) = true by simp [hp])
  next h => simp [hc] at h

/-- A cycle that memory takes no part in is performed in its grant, against a request of the 716 (R162, R163). -/
theorem arbitrate_performs {s : State} {c : Cycle} {rest : List Cycle} (n : Nat) (ho : s.owner = .none)
    (hst : ∀ k, s.stretch ≠ .held k) (hc : s.cycles = c :: rest) (hg : s.grantCount < 8) (hp : s.isPassed c = false) :
    ∃ b m g, arbitrate false (n + 1) s =
      arbitrate false n (({ s with burst := b, meterRequest := m, grantCount := g } : State).performCycle c) := by
  obtain ⟨b, m, hraised⟩ : ∃ b m, s.raiseRequests = { s with burst := b, meterRequest := m } := ⟨_, _, s.raiseRequests_eq⟩
  have hwaits : s.raiseRequests.processorWaits = true := by
    rw [hraised]
    cases hs : s.stretch with
    | held k => exact absurd hs (hst k)
    | none => simp [State.processorWaits, hc]
    | placeKept => simp [State.processorWaits, hc]
  have hcount : s.raiseRequests.grantCount < 8 := by rw [hraised]; exact hg
  have hwins : s.raiseRequests.processorWins = true := by
    simp [State.processorWins, hwaits, Config.grantLimit, hcount]
  have hgrant := s.raiseRequests.grantProcessor_performs (s.raiseRequests_cycles.trans hc) (by rw [hraised]; exact hp)
  refine ⟨b, m, if s.raiseRequests.partWaits then s.grantCount + 1 else 0, ?_⟩
  rw [arbitrate_succ, if_neg (by rw [State.raiseRequests_owner, ho]; exact not_not.mpr rfl), if_pos hwins, hgrant]
  rw [hraised]

/-- An order word that goes to memory under the processor's ownership of the port (R144). -/
theorem performCycle_orderTaken {s : State} {w v : Word} {off : Nat} (hready : s.phase = .ready) (hregion : s.map.region w = .order off)
    (hoff : off % 4 = 3) (hv : v.getLsbD 15 = false) (hidle : (s.slot (offsetSlot off)).state = .idle) (hroom : s.orderQueue.length < 8) :
    s.performCycle (.write w v) = { s with owner := .processor, accessLeft := Config.accessPeriods, stretch := .none } := by
  have horder : s.orderRoom = true := by simp [State.orderRoom, Config.orderQueueCapacity, hroom]
  simp only [State.performCycle, hready, State.readyWrite, hregion, hoff, if_true, State.judgeOrderWord, hv, hidle, horder,
    Bool.false_eq_true, if_false, ne_eq, not_true_eq_false]

/-- Settles O41: the result word is stored, and the dispatcher and the stretched write go on. -/
theorem resultWriteFreesSlot : Obligations.ResultWriteFreesSlot := by
  unfold Obligations.ResultWriteFreesSlot
  refine ⟨fun s r rest hp hstore howner hr hq hcycles => ?_, fun s r e q hready howner hr hq hd hkind => ?_⟩
  · intro a circuit
    have hdispatch : (s.resultWritten r rest).runDispatch = s.resultWritten r rest := runDispatcher_empty _ _ hq
    obtain ⟨t, ht, harb⟩ : ∃ t, exec .resultWriteComplete s = .next t ∧ State.ArbiterOnly (s.resultWritten r rest) t :=
      ⟨_, (exec_resultWriteComplete hp howner hr).trans (by rw [hdispatch]), State.askPort_arbiterOnly _ hcycles⟩
    obtain ⟨hsame, hother⟩ := State.written (t := t) a (resultWord r) hstore harb.mem
    have hcircuit : circuitField r.circuit = circuit := circuitField_eq r.circuit
    have hword : (t.readMem a).toNat = 32768 + 1024 * r.code.code + circuit := by
      rw [hsame, resultWord_toNat, hcircuit]
    refine ⟨t, ht, ?_, hword, hother, ?_, fun i => ?_⟩
    · rw [harb.mem, harb.slots]
      exact harb.rebase
    · have hlt := circuitField_lt r.circuit
      have hcode : (t.readMem a).toNat / 1024 = 32 + r.code.code := by omega
      exact hcode.trans (congrArg (32 + ·) (resultCode_eq r.code))
    · rw [State.slot, harb.slots]
      exact s.setSlotState_slot r.slot i .idle
  · have hp : s.phase ≠ .held := by rw [hready]; exact Phase.noConfusion
    let u := (s.resultWritten r []).badOrderTaken e q
    have hdispatch : (s.resultWritten r []).runDispatch = u :=
      State.runDispatch_unknown (if_pos hd) hq hkind
    have hexec : exec .resultWriteComplete s = .next u.askPort := (exec_resultWriteComplete hp howner hr).trans (by rw [hdispatch])
    have hslot : ∀ i, u.slot i =
        if i = e.slot then { s.slot i with state := .inFlight }
        else if i = r.slot then { s.slot i with state := .idle } else s.slot i := fun i => by
      refine ((s.resultWritten r []).setSlotState_slot e.slot i .inFlight).trans ?_
      rw [show (s.resultWritten r []).slot i = (s.setSlotState r.slot .idle).slot i from rfl, s.setSlotState_slot r.slot i .idle]
      split_ifs <;> rfl
    refine ⟨fun hcycles hst => ?_, fun n w v off hst hcycles hregion hoff hv hidle hne hroom hg => ?_⟩
    · have harb := State.askPort_arbiterOnly u hcycles
      refine ⟨u.askPort, hexec, ?_, ?_, ?_, fun i => ?_⟩
      · rw [harb]; rfl
      · rw [harb]; rfl
      · rw [harb]; rfl
      · rw [State.slot, harb.slots]
        exact hslot i
    · have hkept : u.stretch = .placeKept := by
        show (s.resultWritten r []).keepPlace.stretch = .placeKept
        simp only [State.keepPlace, State.resultWritten, hst]
      have hpassed : u.isPassed (.write w v) = false := by
        have hphase : u.phase = .ready := hready
        have hmap : u.map.region w = .order off := hregion
        simp only [State.isPassed, hphase, hmap, hoff, hv]
        rfl
      have hidle' : (u.slot (offsetSlot off)).state = .idle := by
        rw [hslot, if_neg hne]
        split <;> simp [hidle]
      obtain ⟨b, m, g, he⟩ := arbitrate_performs (s := u) (c := .write w v) (rest := []) (3 * s.cycles.length + 3) rfl
        (fun k => by rw [hkept]; exact Stretch.noConfusion) hcycles hg hpassed
      have he' : u.askPort = _ := he
      rw [performCycle_orderTaken (s := { u with burst := b, meterRequest := m, grantCount := g }) hready hregion hoff hv hidle' hroom, arbitrate_owned false _ (by exact Owner.noConfusion),
        State.raiseRequests_eq] at he'
      refine ⟨u.askPort, hexec, ?_, ?_, ?_, ?_, ?_⟩ <;> rw [he'] <;> rfl

end Sys2Proof.Machine
end

section
/-!
PROOF. A ticket burst (O42).
-/

namespace Sys2Proof.Machine

set_option Elab.async false

/-! ## A run of words -/

/-- The address `addr` gives different addresses to the words below `n`. -/
def ApartBelow (addr : Nat → Word) (n : Nat) : Prop := ∀ v < n, ∀ w < n, addr v = addr w → v = w

/-- What a write of a run of words leaves in the call store. -/
theorem State.readMem_writeWords {addr : Nat → Word} {n : Nat} (hapart : ApartBelow addr n) :
    ∀ (ws : List Word) (s : State) (i : Nat), s.StoreInv → i + ws.length ≤ n →
      (∀ (k : Nat) (h : k < ws.length), (s.writeWords addr i ws).readMem (addr (i + k)) = ws[k]) ∧
        ∀ a, (∀ k, k < ws.length → a ≠ addr (i + k)) → (s.writeWords addr i ws).readMem a = s.readMem a
  | [], _, _, _, _ => ⟨fun _ h => absurd h (Nat.not_lt_zero _), fun _ _ => rfl⟩
  | w :: rest, s, i, hstore, hn => by
    rw [List.length_cons] at hn
    obtain ⟨hrest, hframe⟩ := State.readMem_writeWords hapart rest (s.writeMem (addr i) w) (i + 1) (s.writeMem_wf _ w hstore) (by omega)
    obtain ⟨hsame, hother⟩ := State.written (t := s.writeMem (addr i) w) (addr i) w hstore rfl
    refine ⟨fun k hk => ?_, fun a ha => ?_⟩
    · cases k with
      | zero =>
        refine (hframe (addr i) fun k hk heq => ?_).trans hsame
        have := hapart i (by omega) (i + 1 + k) (by omega) heq
        omega
      | succ k =>
        have hrun := hrest k (Nat.lt_of_succ_lt_succ hk)
        rw [Nat.add_assoc, Nat.add_comm 1 k] at hrun
        exact hrun
    · refine (hframe a fun k hk => ?_).trans (hother a (ha 0 (Nat.succ_pos _)))
      have hne := ha (k + 1) (Nat.succ_lt_succ hk)
      rwa [Nat.add_comm k 1, ← Nat.add_assoc] at hne

/-- The eight words of a ring slot lie apart. -/
theorem ticketAddr_apart (m : RegionMap) (slot : Nat) : ApartBelow (m.ticketAddr slot) 8 := by
  intro v hv w hw h
  have hoff : (BitVec.ofNat 16 (8 * slot + v) : Word) = BitVec.ofNat 16 (8 * slot + w) := (BitVec.add_right_inj _).mp h
  have hnat := congrArg BitVec.toNat hoff
  rw [BitVec.toNat_ofNat, BitVec.toNat_ofNat] at hnat
  omega

/-! ## The words of a ticket (section 11.4) -/

/-- The fields of the word of circuit, kind, re-answer and credit. -/
theorem Ticket.word1_fields (k : Ticket) (h : k.body.InRange) (w : Word) (hw : k.words[1]? = some w) :
    w.toNat % 64 = k.body.circuit.val ∧ w.getLsbD 6 = decide (24 ≤ k.body.circuit.val) ∧ w.getLsbD 7 = k.body.reAnswer ∧
      w.toNat / 256 = k.body.credit := by
  have hkind : (circuitKind k.body.circuit).code = (decide (24 ≤ k.body.circuit.val)).toNat := by
    have hx := h.circuit
    rw [circuitKind_code]
    by_cases hcord : k.body.circuit.val < 24 <;> simp [hcord, hx, Nat.not_le.mpr, Nat.le_of_not_lt]
  have hx := h.circuit
  have hcredit := h.credit
  have hjunction := (decide (24 ≤ k.body.circuit.val)).toNat_le
  have hanswer := k.body.reAnswer.toNat_le
  let n := k.body.circuit.val + 64 * (decide (24 ≤ k.body.circuit.val)).toNat + k.body.reAnswer.toNat * 2 ^ 7 + 256 * k.body.credit
  have hn : w = BitVec.ofNat 16 n := by
    rw [← Option.some.inj hw, hkind, flagBit_eq]
  have hnat : w.toNat = n := hn ▸ toNat_ofNat_of_lt (by omega)
  rw [hnat, hn]
  exact ⟨by omega, getLsbD_ofNat (by decide) (by omega), getLsbD_ofNat (by decide) (by omega), by omega⟩

theorem ClearCause.code_lt (c : ClearCause) : c.code < 8 := by
  cases c <;> decide

theorem causeField_lt (c : Option ClearCause) : causeField c < 8 := by
  cases c with
  | none => decide
  | some c => exact c.code_lt

/-- The fields of the word of flags, bands and cause. -/
theorem Ticket.word2_fields (k : Ticket) (w : Word) (hw : k.words[2]? = some w) :
    let b := k.body
    (w.getLsbD 0 = b.timeUnset ∧ w.getLsbD 1 = b.longCall ∧ w.getLsbD 2 = b.bandChanged ∧ w.getLsbD 3 = b.calledClearSeen ∧
      w.getLsbD 4 = b.payToneSent ∧ w.getLsbD 5 = b.creditAdded ∧ w.getLsbD 6 = b.coin ∧ w.getLsbD 7 = b.detailed) ∧
      w.toNat / 256 % 4 = b.bandAtAnswer.val ∧ w.toNat / 1024 % 8 = causeField b.cause ∧ w.toNat / 8192 = b.distBand.val := by
  intro b
  have h0 := b.timeUnset.toNat_le
  have h1 := b.longCall.toNat_le
  have h2 := b.bandChanged.toNat_le
  have h3 := b.calledClearSeen.toNat_le
  have h4 := b.payToneSent.toNat_le
  have h5 := b.creditAdded.toNat_le
  have h6 := b.coin.toNat_le
  have h7 := b.detailed.toNat_le
  have hband := b.bandAtAnswer.isLt
  have hcause := causeField_lt b.cause
  have hdist := b.distBand.isLt
  let n := b.timeUnset.toNat * 2 ^ 0 + b.longCall.toNat * 2 ^ 1 + b.bandChanged.toNat * 2 ^ 2 + b.calledClearSeen.toNat * 2 ^ 3
    + b.payToneSent.toNat * 2 ^ 4 + b.creditAdded.toNat * 2 ^ 5 + b.coin.toNat * 2 ^ 6 + b.detailed.toNat * 2 ^ 7
    + 256 * b.bandAtAnswer.val + 1024 * causeField b.cause + 8192 * b.distBand.val
  have hn : w = BitVec.ofNat 16 n := by
    rw [← Option.some.inj hw]
    simp only [TicketBody.flags, flagBit_eq, n, b]
  have hnat : w.toNat = n := hn ▸ toNat_ofNat_of_lt (by omega)
  rw [hnat, hn]
  exact ⟨⟨getLsbD_ofNat (by decide) (by omega), getLsbD_ofNat (by decide) (by omega), getLsbD_ofNat (by decide) (by omega),
    getLsbD_ofNat (by decide) (by omega), getLsbD_ofNat (by decide) (by omega), getLsbD_ofNat (by decide) (by omega),
    getLsbD_ofNat (by decide) (by omega), getLsbD_ofNat (by decide) (by omega)⟩, by omega, by omega, by omega⟩

/-- The fields of the word of calling line and owed count. -/
theorem Ticket.word3_fields (k : Ticket) (h : k.body.InRange) (w : Word) (hw : k.words[3]? = some w) :
    (∀ l, k.body.calling = some l → w.toNat % 512 = l.val) ∧ w.toNat / 512 = k.body.owed := by
  have howed := h.owed
  let line : Nat := match k.body.calling with | some l => l.val | none => 0
  have hline : line < 512 := by
    simp only [line]
    split <;> omega
  have hn : w = BitVec.ofNat 16 (line + 512 * k.body.owed) := (Option.some.inj hw).symm
  have hnat : w.toNat = line + 512 * k.body.owed := hn ▸ toNat_ofNat_of_lt (by omega)
  rw [hnat]
  refine ⟨fun l hl => ?_, by omega⟩
  have hl' : line = l.val := by simp only [line, hl]
  omega

theorem calledNumber_lt (c : Option Called) : calledNumber c < 512 := by
  rcases c with _ | (l | j)
  · decide
  · exact l.isLt
  · exact Nat.lt_trans j.isLt (by decide)

/-- The fields of the word of called number and answer second. -/
theorem Ticket.word4_fields (k : Ticket) (h : k.body.InRange) (w : Word) (hw : k.words[4]? = some w) :
    w.toNat % 512 = calledNumber k.body.called ∧ w.getLsbD 9 = false ∧ w.toNat / 1024 = k.body.answerSecond := by
  have hsecond := h.second
  have hcalled := calledNumber_lt k.body.called
  have hn : w = BitVec.ofNat 16 (calledNumber k.body.called + 1024 * k.body.answerSecond) := (Option.some.inj hw).symm
  have hnat : w.toNat = calledNumber k.body.called + 1024 * k.body.answerSecond := hn ▸ toNat_ofNat_of_lt (by omega)
  rw [hnat, hn]
  exact ⟨by omega, getLsbD_ofNat (b := false) (by decide) (show _ = 0 by omega), by omega⟩

/-! ## The end of a burst (R135) -/

/-- The records once the oldest waiter in CLOSING has been admitted (R131, R49). -/
def State.waiterGuarded (s : State) : Vector CallRecord 56 :=
  match s.closingWaiters with
  | (x, _) :: _ => s.records.set x.val guardRecord x.isLt
  | [] => s.records

theorem State.waiterGuarded_record (s : State) (x : Circuit) :
    ({ s with records := s.waiterGuarded } : State).record x =
      if s.closingWaiters.head?.map Prod.fst = some x then guardRecord else s.record x := by
  unfold State.waiterGuarded
  cases hw : s.closingWaiters with
  | nil => simp [State.record]
  | cons e rest =>
    obtain ⟨y, b⟩ := e
    refine (s.record_set y x guardRecord).trans ?_
    simp [eq_comm]

/-- The oldest waiter in CLOSING takes the freed place with the next sequence number (R129, R131). -/
theorem State.admitWaiter_eq (s : State) :
    s.admitWaiter =
      { s with
        closingWaiters := s.closingWaiters.tail, records := s.waiterGuarded,
        holdQueue :=
          match s.closingWaiters with
          | (_, b) :: _ => s.holdQueue ++ [{ seq := s.seqCounter, body := b }]
          | [] => s.holdQueue,
        seqCounter := if s.closingWaiters = [] then s.seqCounter else (s.seqCounter + 1) % 65536 } := by
  unfold State.admitWaiter State.waiterGuarded
  cases hw : s.closingWaiters with
  | nil =>
    cases s
    subst hw
    rfl
  | cons e rest => rfl

theorem State.burstEnd_eq {s : State} {k : Ticket} {rest : List Ticket} (hk : s.holdQueue = k :: rest) :
    s.burstEnd =
      ({ s with
        mem := (s.writeWords (s.map.ticketAddr s.writeIndex) 0 k.words).mem,
        writeIndex := (s.writeIndex + 1) % s.map.ringSize,
        ringFull := s.ringFull || decide ((s.writeIndex + 1) % s.map.ringSize = s.readIndex), holdQueue := rest, burst := .idle,
        owner := .none, accessLeft := 0 } : State).admitWaiter := by
  simp only [State.burstEnd, hk]
  rw [State.writeWords_eq]

/-- Settles O42: the words of the ticket stand in the slot, and the ring and the waiters go on. -/
theorem ticketBurstFillsRing : Obligations.TicketBurstFillsRing := by
  unfold Obligations.TicketBurstFillsRing
  intro s k rest hready hstore hmap htickets howner hk hcycles hindex n slotAddr
  obtain ⟨hseq, hbody⟩ := htickets.held k (by rw [hk]; exact List.mem_cons_self)
  have hburst := State.burstEnd_eq hk
  rw [State.admitWaiter_eq] at hburst
  obtain ⟨t, ht, harb⟩ : ∃ t, exec .ticketBurstEnd s = .next t ∧ State.ArbiterOnly s.burstEnd t := by
    refine ⟨s.burstEnd.askPort, (running_next State.burstEndEvent (by rw [hready]; exact Phase.noConfusion)).trans ?_, ?_⟩
    · rw [State.burstEndEvent, if_pos howner]
    · exact State.askPort_arbiterOnly _ (by rw [hburst]; exact hcycles)
  rw [hburst] at harb
  obtain ⟨hwords, hframe⟩ := State.readMem_writeWords (ticketAddr_apart s.map s.writeIndex) k.words s 0 hstore (le_refl 8)
  have hread : ∀ a, t.readMem a = (s.writeWords (s.map.ticketAddr s.writeIndex) 0 k.words).readMem a := fun a => by
    simp only [State.readMem, harb.mem]
  have hword : ∀ w, w < 8 → k.words[w]? = some (t.readMem (slotAddr w)) := fun w h => by
    have hrun := hwords w h
    rw [Nat.zero_add] at hrun
    rw [List.getElem?_eq_getElem h, ← hrun]
    exact congrArg some (hread _).symm
  refine ⟨t, ht, ?_, ?_, fun a ha => ?_, fun x => ?_⟩
  · rw [harb.mem, harb.records]
    exact harb.rebase
  · obtain ⟨h1a, h1b, h1c, h1d⟩ := k.word1_fields hbody _ (hword 1 (by decide))
    obtain ⟨⟨h2a, h2b, h2c, h2d, h2e, h2f, h2g, h2h⟩, hband, hcause, hdist⟩ := k.word2_fields _ (hword 2 (by decide))
    obtain ⟨h3a, h3b⟩ := k.word3_fields hbody _ (hword 3 (by decide))
    obtain ⟨h4a, h4b, h4c⟩ := k.word4_fields hbody _ (hword 4 (by decide))
    have hminute := hbody.minute
    have hduration := hbody.duration
    have hpaid := hbody.paid
    refine ⟨?_, h1a, h1b, h1c, h1d, h2a, h2b, h2c, h2d, h2e, h2f, h2g, h2h, hband, fun c hc => ?_, hdist, h3a, h3b,
      fun l hl => ?_, fun j hj => ?_, h4b, h4c, ?_, ?_, ?_⟩
    · exact (congrArg BitVec.toNat (Option.some.inj (hword 0 (by decide)))).symm.trans (toNat_ofNat_of_lt (by omega))
    · refine hcause.trans ?_
      rw [hc]
      cases c <;> rfl
    · exact h4a.trans (by rw [hl]; rfl)
    · exact h4a.trans (by rw [hj]; rfl)
    · exact (congrArg BitVec.toNat (Option.some.inj (hword 5 (by decide)))).symm.trans (toNat_ofNat_of_lt (by omega))
    · exact (congrArg BitVec.toNat (Option.some.inj (hword 6 (by decide)))).symm.trans (toNat_ofNat_of_lt (by omega))
    · exact (congrArg BitVec.toNat (Option.some.inj (hword 7 (by decide)))).symm.trans (toNat_ofNat_of_lt (by omega))
  · refine (hread a).trans (hframe a fun w hw => ?_)
    rw [Nat.zero_add]
    exact ha w hw
  · rw [State.record, harb.records]
    exact s.waiterGuarded_record x

end Sys2Proof.Machine
end

section
/-!
PROOF. What the port leaves alone, and the clock (O48).
-/

namespace Sys2Proof.Machine

set_option Elab.async false

/-! ## What a cycle and a grant leave alone -/

/-- The parts of the state that no cycle of the processor and no grant changes: records, lines, points, the commands for the Matrix
Port, the dividers and the week clock. -/
def State.offPort (s : State) : State :=
  { State.reset with
    records := s.records, lines := s.lines, points := s.points, scanPins := s.scanPins, scanDivider := s.scanDivider,
    txQueue := s.txQueue, tickDivider := s.tickDivider, tenths := s.tenths, second := s.second, weekMinute := s.weekMinute,
    band := s.band, timeUnset := s.timeUnset }

theorem State.offPort_report (s : State) (r : Report) : (s.report r).offPort = s.offPort := by
  unfold State.report
  split <;> rfl

theorem State.offPort_passRead (s : State) (a : Word) (mperr : Bool) (pair : Option Line) :
    (s.passRead a mperr pair).offPort = s.offPort := by
  unfold State.passRead
  split <;> rfl

theorem State.offPort_popReport (s : State) : s.popReport.offPort = s.offPort := by
  unfold State.popReport
  split <;> rfl

theorem State.offPort_afterCellRead (s : State) (off : Nat) : (s.afterCellRead off).offPort = s.offPort := by
  unfold State.afterCellRead
  split
  · rfl
  · exact s.offPort_popReport
  · rfl

theorem State.offPort_capture (s : State) (i : OrderSlot) (word : Nat) (v : Word) : (s.capture i word v).offPort = s.offPort := by
  unfold State.capture
  split <;> rfl

theorem State.offPort_judgeOrderWord (s : State) (i : OrderSlot) (a v : Word) : (s.judgeOrderWord i a v).offPort = s.offPort := by
  unfold State.judgeOrderWord
  split_ifs <;> rfl

theorem State.offPort_judgeReadIndex (s : State) (v : Word) : (s.judgeReadIndex v).offPort = s.offPort := by
  simp only [State.judgeReadIndex]
  split_ifs
  · exact s.offPort_report _
  · rfl
  · rfl
  · exact s.offPort_report _

theorem State.offPort_takeConfigWord (s : State) (taken : List Word) (v : Word) : (s.takeConfigWord taken v).offPort = s.offPort := by
  unfold State.takeConfigWord
  split
  · split <;> rfl
  · rfl

theorem State.offPort_readyRead (s : State) (a : Word) (mperr : Bool) : (s.readyRead a mperr).offPort = s.offPort := by
  unfold State.readyRead
  split
  case h_3 off _ => exact s.offPort_afterCellRead off
  case h_4 => rfl
  all_goals exact s.offPort_passRead a mperr _

theorem State.offPort_readyWrite (s : State) (a v : Word) : (s.readyWrite a v).offPort = s.offPort := by
  unfold State.readyWrite
  split
  case h_2 =>
    split
    · exact s.offPort_judgeOrderWord _ a v
    · exact (s.passWrite a v).offPort_capture _ _ v
  case h_3 =>
    split
    · exact (s.passWrite a v).offPort_judgeReadIndex v
    · rfl
  all_goals rfl

theorem State.offPort_performCycle (s : State) (c : Cycle) : (s.performCycle c).offPort = s.offPort := by
  unfold State.performCycle
  split
  · rfl
  · split
    · exact s.offPort_passRead _ _ none
    · exact s.offPort_takeConfigWord _ _
  · split
    · exact s.offPort_readyRead _ _
    · exact s.offPort_readyWrite _ _

theorem State.ArbiterOnly.offPort {s t : State} (h : State.ArbiterOnly s t) : t.offPort = s.offPort := by
  rw [h]
  rfl

theorem offPort_ite {c : Prop} [Decidable c] {s t u : State} (hs : s.offPort = u.offPort) (ht : t.offPort = u.offPort) :
    (if c then s else t).offPort = u.offPort := by
  split
  · exact hs
  · exact ht

theorem State.offPort_grantProcessor (s : State) (whole : Bool) : (s.grantProcessor whole).offPort = s.offPort := by
  unfold State.grantProcessor
  split
  · exact offPort_ite rfl (State.offPort_performCycle _ _)
  · rfl

theorem arbitrate_offPort (whole : Bool) : ∀ (n : Nat) (s : State), (arbitrate whole n s).offPort = s.offPort
  | 0, _ => rfl
  | n + 1, s => by
    have hraised := s.raiseRequests_arbiterOnly.offPort
    rw [arbitrate_succ]
    split_ifs
    · exact hraised
    · exact (arbitrate_offPort whole n _).trans ((State.offPort_grantProcessor _ whole).trans hraised)
    · exact (arbitrate_offPort whole n _).trans ((State.grantPart_arbiterOnly _).offPort.trans hraised)
    · exact hraised

theorem State.offPort_askPort (s : State) : s.askPort.offPort = s.offPort := arbitrate_offPort false _ s

/-! ## The week clock (R74) -/

/-- Settles O48: the clock passes to the next minute, and the band is evaluated for it. -/
theorem minuteRolloverReevaluates : Obligations.MinuteRolloverReevaluates := by
  unfold Obligations.MinuteRolloverReevaluates
  intro s hp
  refine ⟨_, running_next State.minuteRollover hp, ?_⟩
  have hminute : (if s.weekMinute + 1 < Config.weekMinutes then s.weekMinute + 1 else 0) =
      if s.weekMinute < 10079 then s.weekMinute + 1 else 0 := by
    rw [Config.weekMinutes]
    exact if_congr (by omega) rfl rfl
  rw [← hminute]
  exact State.reevaluateBand_spec _

/-- What an advance of the week clock leaves: the band in force alone may follow it, by a re-evaluation at the minute (R74, R80). -/
theorem State.advanceClock_spec (s : State) :
    let minute := if s.tenths < 9 ∨ s.second < 59 then s.weekMinute else if s.weekMinute + 1 < 10080 then s.weekMinute + 1 else 0
    let u : State :=
      { s with
        tenths := if s.tenths < 9 then s.tenths + 1 else 0,
        second := if s.tenths < 9 then s.second else if s.second < 59 then s.second + 1 else 0, weekMinute := minute }
    (s.tenths < 9 ∨ s.second < 59 → s.advanceClock = u) ∧ (9 ≤ s.tenths → 59 ≤ s.second → u.BandReevaluated s.advanceClock) := by
  intro minute u
  unfold State.advanceClock
  by_cases htenths : s.tenths < 9
  · refine ⟨fun _ => ?_, fun h => by omega⟩
    simp only [htenths, if_true, u, minute, true_or]
  · by_cases hsecond : s.second < 59
    · refine ⟨fun _ => ?_, fun _ h => by omega⟩
      simp only [htenths, hsecond, if_true, if_false, u, minute, or_true]
    · refine ⟨fun h => by omega, fun _ _ => ?_⟩
      have hu : u = { s with tenths := 0, second := 0, weekMinute := if s.weekMinute + 1 < 10080 then s.weekMinute + 1 else 0 } := by
        simp only [htenths, hsecond, if_false, u, minute, or_self]
      rw [if_neg htenths, if_neg hsecond, hu]
      exact State.reevaluateBand_spec _

end Sys2Proof.Machine
end

section
/-!
PROOF. The metering tick at a record: what it leaves alone, and what it makes of the record and its line.
-/

namespace Sys2Proof.Machine

set_option Elab.async false

/-! ## What the work at one record leaves alone -/

/-- `t` differs from `s` in what the work at call records may change alone. -/
def State.RecordsOnly (s t : State) : Prop :=
  t = { s with
    records := t.records, lines := t.lines, links := t.links, txQueue := t.txQueue, reports := t.reports,
    reportsLost := t.reportsLost, holdQueue := t.holdQueue, seqCounter := t.seqCounter, closingWaiters := t.closingWaiters }

theorem State.RecordsOnly.trans {s t u : State} (h : s.RecordsOnly t) (h' : t.RecordsOnly u) : s.RecordsOnly u := by
  unfold State.RecordsOnly at *
  rw [h'] at *
  rw [h]

/-- `t` is `s` after work at record `x` that charges no other line than `c`. -/
structure State.WorkAt (x : Circuit) (c : Option Line) (s t : State) : Prop where
  rest : s.RecordsOnly t
  others : ∀ y, y ≠ x → t.record y = s.record y
  cls : ∀ l, (t.line l).cls = (s.line l).cls
  counts : ∀ l, c ≠ some l → (t.line l).pulses = (s.line l).pulses ∧ (t.line l).fault = (s.line l).fault
  tones : ∀ y, y ≠ x → .payTone y ∈ s.txQueue → .payTone y ∈ t.txQueue

namespace State.WorkAt

variable {x : Circuit} {c : Option Line} {s t u : State}

theorem refl : s.WorkAt x c s := ⟨rfl, fun _ _ => rfl, fun _ => rfl, fun _ _ => ⟨rfl, rfl⟩, fun _ _ => id⟩

theorem trans (h : s.WorkAt x c t) (h' : t.WorkAt x c u) : s.WorkAt x c u where
  rest := h.rest.trans h'.rest
  others y hy := (h'.others y hy).trans (h.others y hy)
  cls l := (h'.cls l).trans (h.cls l)
  counts l hl := ⟨(h'.counts l hl).1.trans (h.counts l hl).1, (h'.counts l hl).2.trans (h.counts l hl).2⟩
  tones y hy hm := h'.tones y hy (h.tones y hy hm)

theorem of_none (h : s.WorkAt x none t) : s.WorkAt x c t where
  rest := h.rest
  others := h.others
  cls := h.cls
  counts l _ := h.counts l nofun
  tones := h.tones

theorem setRecord (r : CallRecord) : s.WorkAt x c (s.setRecord x r) :=
  ⟨rfl, fun y hy => s.record_setRecord_ne x y r hy, fun _ => rfl, fun _ _ => ⟨rfl, rfl⟩, fun _ _ => id⟩

theorem report (r : Report) : s.WorkAt x c (s.report r) := by
  rw [State.report_eq]
  exact ⟨rfl, fun _ _ => rfl, fun _ => rfl, fun _ _ => ⟨rfl, rfl⟩, fun _ _ => id⟩

theorem issue (cmd : PortCommand) : s.WorkAt x c (s.issue cmd) :=
  ⟨rfl, fun _ _ => rfl, fun _ => rfl, fun _ _ => ⟨rfl, rfl⟩, fun _ _ hm => List.mem_append_left _ hm⟩

theorem issuePayTone : s.WorkAt x c (s.issuePayTone x) := by
  unfold State.issuePayTone
  split
  · exact .refl
  · exact .issue _

theorem withdrawTone : s.WorkAt x c (s.withdraw (.payTone x)) where
  rest := rfl
  others _ _ := rfl
  cls _ := rfl
  counts _ _ := ⟨rfl, rfl⟩
  tones y hy hm := List.mem_filter.mpr ⟨hm, by simpa using hy⟩

theorem releaseRequest : s.WorkAt x c (s.releaseRequest x) :=
  ⟨rfl, fun _ _ => rfl, fun _ => rfl, fun _ _ => ⟨rfl, rfl⟩, fun _ _ => id⟩

theorem setBusy (o : Option Line) (b : Option Circuit) : s.WorkAt x c (s.setBusy o b) := by
  have hline := s.setBusy_line o b
  rw [State.setBusy_eq]
  refine ⟨rfl, fun _ _ => rfl, fun l => ?_, fun l _ => ?_, fun _ _ => id⟩
  · refine (congrArg LineEntry.cls (hline l)).trans ?_
    split <;> rfl
  · have hl : ({ s with lines := (s.setBusy o b).lines } : State).line l = _ := hline l
    rw [hl]
    split <;> exact ⟨rfl, rfl⟩

theorem freeLines : s.WorkAt x c (s.freeLines x) := (WorkAt.setBusy _ _).trans (.setBusy _ _)

theorem offerTicket (b : TicketBody) : s.WorkAt x c (s.offerTicket x b) := by
  have hheld : s.WorkAt x c (s.enterHoldQueue b) :=
    ⟨rfl, fun _ _ => rfl, fun _ => rfl, fun _ _ => ⟨rfl, rfl⟩, fun _ _ => id⟩
  have hwaits : s.WorkAt x c { s with closingWaiters := s.closingWaiters ++ [(x, b)] } :=
    ⟨rfl, fun _ _ => rfl, fun _ => rfl, fun _ _ => ⟨rfl, rfl⟩, fun _ _ => id⟩
  unfold State.offerTicket
  split
  · exact hheld.trans (.setRecord _)
  · exact hwaits.trans (.setRecord (closingRecord (s.record x)))

theorem breakComplete : s.WorkAt x c (s.breakComplete x) := by
  have hreleased : s.WorkAt x c (((s.releaseRequest x).freeLines x).modifyRecord x fun r => { r with path := [] }) :=
    (WorkAt.releaseRequest.trans .freeLines).trans (.setRecord _)
  simp only [State.breakComplete]
  split
  · exact hreleased.trans (.offerTicket _)
  · exact hreleased.trans (.setRecord _)

theorem enterClearing (cause : ClearCause) : s.WorkAt x c (s.enterClearing x cause) := by
  have hmarked : s.WorkAt x c (s.markClearing x cause) := ((WorkAt.setRecord _).trans .withdrawTone).trans (.report _)
  refine hmarked.trans ?_
  show (s.markClearing x cause).WorkAt x c ((s.markClearing x cause).breakNext x)
  unfold State.breakNext
  split
  · exact (WorkAt.setRecord _).trans (.issue _)
  · exact .breakComplete

theorem startGrace : s.WorkAt x c (s.startGrace x) :=
  (((WorkAt.setRecord _).trans .issuePayTone).trans (.setRecord _)).trans (.report _)

theorem countGrace (ran : Bool) : s.WorkAt x c (s.countGrace x ran) := by
  unfold State.countGrace State.graceExpired
  split
  · split
    · split
      · exact .enterClearing _
      · exact .refl
    · exact .setRecord _
  · exact .refl
  · exact .refl

end State.WorkAt

/-! ## A charge to a line (R92 to R94) -/

/-- An entry of the line table after one pulse has been charged to it (R93, R94). -/
def chargedEntry (e : LineEntry) : LineEntry :=
  if e.pulses < 65535 then { e with pulses := e.pulses + 1 } else { e with fault := .saturated }

theorem chargedEntry_cls (e : LineEntry) : (chargedEntry e).cls = e.cls := by
  unfold chargedEntry
  split <;> rfl

theorem State.chargeLine_line (s : State) (l m : Line) :
    (s.chargeLine l).line m = if m = l then chargedEntry (s.line l) else s.line m := by
  unfold chargedEntry
  by_cases hroom : (s.line l).pulses < 65535
  · rw [s.chargeLine_room l hroom, if_pos hroom]
    split
    next h =>
      subst h
      exact s.line_setLine_same m _
    next h => exact s.line_setLine_ne l m _ h
  · rw [s.chargeLine_full l (Nat.le_of_not_lt hroom), if_neg hroom]
    by_cases hsat : (s.line l).fault = .saturated
    · rw [if_pos hsat]
      split
      next h =>
        subst h
        rw [← hsat]
      next => rfl
    · rw [if_neg hsat, State.line_report]
      split
      next h =>
        subst h
        exact s.line_setLine_same m _
      next h => exact s.line_setLine_ne l m _ h

theorem State.WorkAt.chargeLine {x : Circuit} {s : State} (l : Line) : s.WorkAt x (some l) (s.chargeLine l) := by
  have hrest : s.RecordsOnly (s.chargeLine l) ∧ (s.chargeLine l).records = s.records ∧ (s.chargeLine l).txQueue = s.txQueue := by
    simp only [State.chargeLine, State.report_eq]
    split_ifs <;> exact ⟨rfl, rfl, rfl⟩
  obtain ⟨honly, hrecords, htx⟩ := hrest
  refine ⟨honly, fun y _ => ?_, fun m => ?_, fun m hm => ?_, fun y _ h => htx ▸ h⟩
  · simp only [State.record, hrecords]
  · rw [State.chargeLine_line]
    split
    next h => rw [h, chargedEntry_cls]
    next => rfl
  · rw [State.chargeLine_line, if_neg fun h => hm (congrArg some h.symm)]
    exact ⟨rfl, rfl⟩

theorem State.record_chargeCaller (s : State) (x y : Circuit) : (s.chargeCaller x).record y = s.record y := by
  unfold State.chargeCaller
  split
  · simp only [State.chargeLine, State.report_eq]
    split_ifs <;> rfl
  · rfl

theorem State.WorkAt.chargeCaller {x : Circuit} {s : State} : s.WorkAt x (s.record x).calling (s.chargeCaller x) := by
  unfold State.chargeCaller
  cases (s.record x).calling with
  | none => exact .refl
  | some l => exact .chargeLine l

/-! ## A pulse (R92, R93, R112 to R114) -/

/-- A record after one pulse has been disposed of (R93, R112 to R114). -/
def pulsedRecord (r : CallRecord) : CallRecord :=
  if r.coin then
    if r.credit = 0 then
      if r.grace.isSome then { r with owed := saturatingSucc r.owed 127 }
      else { r with owed := saturatingSucc r.owed 127, grace := some 100, payToneSent := true }
    else if r.credit = 1 then { r with credit := 0, paid := saturatingSucc r.paid 65535, grace := some 100, payToneSent := true }
    else { r with credit := r.credit - 1, paid := saturatingSucc r.paid 65535 }
  else { r with paid := saturatingSucc r.paid 65535 }

/-- A pulse is charged to the calling line, unless it is owed (R93, R112, R113). -/
def CallRecord.charges (r : CallRecord) : Prop := r.coin = false ∨ r.credit ≠ 0

/-- A pulse exhausts the credit, or is the first owed: grace starts with PAY TONE (R112, R113). -/
def CallRecord.startsGrace (r : CallRecord) : Prop := r.coin = true ∧ (r.credit = 1 ∨ (r.credit = 0 ∧ r.grace = none))

theorem State.startGrace_record (s : State) (x : Circuit) :
    (s.startGrace x).record x = { s.record x with grace := some 100, payToneSent := true } := by
  have htone : ∀ u : State, (u.issuePayTone x).record x = u.record x := fun u => by
    unfold State.issuePayTone
    split <;> rfl
  simp [State.startGrace, State.modifyRecord, htone, Config.graceTicks]

theorem State.startGrace_tone (s : State) (x : Circuit) : .payTone x ∈ (s.startGrace x).txQueue := by
  have htone : ∀ u : State, .payTone x ∈ (u.issuePayTone x).txQueue := fun u => by
    unfold State.issuePayTone
    split
    next h => simpa using h
    next => exact List.mem_append_right _ List.mem_cons_self
  simp only [State.startGrace, State.report_eq]
  exact htone _

theorem State.pulse_record (s : State) (x : Circuit) : (s.pulse x).record x = pulsedRecord (s.record x) := by
  unfold State.pulse pulsedRecord
  by_cases hcoin : (s.record x).coin = true
  · rw [if_pos hcoin, if_pos hcoin]
    by_cases hcredit : (s.record x).credit = 0
    · rw [if_pos hcredit, if_pos hcredit]
      simp only [State.owedPulse, State.modifyRecord, State.record_setRecord_same, Config.owedMax]
      split
      · exact s.record_setRecord_same x _
      · rw [State.startGrace_record, State.record_setRecord_same]
    · rw [if_neg hcredit, if_neg hcredit]
      simp only [State.paidPulse, State.modifyRecord, State.record_chargeCaller, State.record_setRecord_same, Config.countMax]
      by_cases hone : (s.record x).credit = 1
      · rw [if_pos (by omega), if_pos hone, State.startGrace_record, State.record_chargeCaller, State.record_setRecord_same, hone]
      · rw [if_neg (by omega), if_neg hone, State.record_chargeCaller, State.record_setRecord_same]
  · rw [if_neg hcoin, if_neg hcoin]
    exact (State.record_chargeCaller _ x x).trans (s.record_setRecord_same x _)

/-- A pulse that is charged is charged as one to the calling line; whether or not it starts grace (R92). -/
theorem State.pulse_charged {s : State} {x : Circuit} (h : (s.record x).charges) :
    ∃ r : CallRecord, r.calling = (s.record x).calling ∧ ((s.setRecord x r).chargeCaller x).WorkAt x none (s.pulse x) := by
  unfold State.pulse
  by_cases hcoin : (s.record x).coin = true
  · have hcredit : (s.record x).credit ≠ 0 := h.resolve_left (by simp [hcoin])
    rw [if_pos hcoin, if_neg hcredit]
    refine ⟨{ s.record x with credit := (s.record x).credit - 1, paid := saturatingSucc (s.record x).paid 65535 }, rfl, ?_⟩
    unfold State.paidPulse
    simp only
    split
    · exact .startGrace
    · exact .refl
  · rw [if_neg hcoin]
    exact ⟨{ s.record x with paid := saturatingSucc (s.record x).paid 65535 }, rfl, .refl⟩

/-- A pulse that is owed is charged to no line (R113). -/
theorem State.pulse_owed {s : State} {x : Circuit} (h : ¬ (s.record x).charges) : s.WorkAt x none (s.pulse x) := by
  obtain ⟨hcoin, hcredit⟩ : (s.record x).coin = true ∧ (s.record x).credit = 0 := by
    simpa [CallRecord.charges] using h
  unfold State.pulse
  rw [if_pos hcoin, if_pos hcredit]
  simp only [State.owedPulse]
  split
  · exact .setRecord _
  · exact (State.WorkAt.setRecord _).trans .startGrace

theorem State.WorkAt.pulse {x : Circuit} {s : State} : s.WorkAt x (s.record x).calling (s.pulse x) := by
  by_cases h : (s.record x).charges
  · obtain ⟨r, hcalling, hrest⟩ := State.pulse_charged h
    have hcharge := State.WorkAt.chargeCaller (s := s.setRecord x r) (x := x)
    rw [State.record_setRecord_same, hcalling] at hcharge
    exact ((State.WorkAt.setRecord r).trans hcharge).trans hrest.of_none
  · exact (State.pulse_owed h).of_none

/-- What a pulse leaves of the counts of the calling line (R93, R94, R112, R113). -/
theorem State.pulse_line {s : State} {x : Circuit} {l : Line} (hl : (s.record x).calling = some l) :
    ((s.record x).charges →
      ((s.pulse x).line l).pulses = (chargedEntry (s.line l)).pulses ∧ ((s.pulse x).line l).fault = (chargedEntry (s.line l)).fault) ∧
    (¬ (s.record x).charges → ((s.pulse x).line l).pulses = (s.line l).pulses ∧ ((s.pulse x).line l).fault = (s.line l).fault) := by
  refine ⟨fun h => ?_, fun h => (State.pulse_owed h).counts l nofun⟩
  obtain ⟨r, hcalling, hrest⟩ := State.pulse_charged h
  have hcaller : (s.setRecord x r).chargeCaller x = (s.setRecord x r).chargeLine l :=
    State.chargeCaller_line (by rw [State.record_setRecord_same, hcalling, hl])
  have hline : ((s.setRecord x r).chargeLine l).line l = chargedEntry (s.line l) :=
    ((s.setRecord x r).chargeLine_line l l).trans (if_pos rfl)
  have hcounts := hrest.counts l nofun
  rwa [hcaller, hline] at hcounts

theorem State.pulse_tone {s : State} {x : Circuit} (h : (s.record x).startsGrace) : .payTone x ∈ (s.pulse x).txQueue := by
  obtain ⟨hcoin, hone | ⟨hzero, hgrace⟩⟩ := h
  · have hpulse : s.pulse x = s.paidPulse x := by rw [State.pulse, if_pos hcoin, if_neg (by omega)]
    rw [hpulse]
    simp only [State.paidPulse, State.modifyRecord, State.record_chargeCaller, State.record_setRecord_same]
    rw [if_pos (by omega)]
    exact State.startGrace_tone _ x
  · have hpulse : s.pulse x = s.owedPulse x := by rw [State.pulse, if_pos hcoin, if_pos hzero]
    rw [hpulse]
    simp only [State.owedPulse, State.modifyRecord, State.record_setRecord_same, hgrace]
    exact State.startGrace_tone _ x

end Sys2Proof.Machine
end

section
/-!
PROOF. The metering tick over the records, and its obligations (O46, O47).
-/

namespace Sys2Proof.Machine

set_option Elab.async false

/-! ## The tick at one record (R89, R90, R115) -/

theorem State.metered_iff (s : State) (x : Circuit) : s.metered x = true ↔ (s.record x).state = .answered ∧ x.val < 48 := by
  rw [State.metered, Bool.and_eq_true, decide_eq_true_eq, decide_eq_true_eq, ne_eq, circuitKind_incoming_iff, Nat.not_le]

theorem State.metered_congr {s t : State} {x : Circuit} (h : t.record x = s.record x) : t.metered x = s.metered x := by
  simp only [State.metered, h]

/-- A record after the accumulator and the duration of a tick whose increment is `inc`, with the pulse it gave (R89, R90). -/
def tickedRecord (r : CallRecord) (inc : Nat) : CallRecord :=
  let r' := if 65536 ≤ r.acc + inc then pulsedRecord { r with acc := r.acc + inc - 65536 } else { r with acc := r.acc + inc }
  { r' with duration := saturatingSucc r.duration 16777215 }

theorem pulsedRecord_kept (r : CallRecord) :
    (pulsedRecord r).duration = r.duration ∧ (pulsedRecord r).state = r.state ∧ (pulsedRecord r).path = r.path ∧
      (pulsedRecord r).calling = r.calling := by
  unfold pulsedRecord
  split_ifs <;> exact ⟨rfl, rfl, rfl, rfl⟩

/-- `s` after the accumulator and the duration of a tick at record `x` (R89, R90). -/
def State.counted (s : State) (x : Circuit) : State := (s.accumulate x).advanceDuration x

theorem State.tickRecord_metered {s : State} {x : Circuit} (h : s.metered x = true) :
    s.tickRecord x = (s.counted x).countGrace x (s.record x).grace.isSome := if_pos h

theorem State.accumulate_pulse {s : State} {x : Circuit} (h : 65536 ≤ (s.record x).acc + s.incrementFor x) :
    s.accumulate x = (s.setRecord x { s.record x with acc := (s.record x).acc + s.incrementFor x - 65536 }).pulse x := if_pos h

theorem State.accumulate_noPulse {s : State} {x : Circuit} (h : ¬ 65536 ≤ (s.record x).acc + s.incrementFor x) :
    s.accumulate x = s.setRecord x { s.record x with acc := (s.record x).acc + s.incrementFor x } := if_neg h

theorem State.counted_record (s : State) (x : Circuit) : (s.counted x).record x = tickedRecord (s.record x) (s.incrementFor x) := by
  refine ((s.accumulate x).record_setRecord_same x _).trans ?_
  unfold tickedRecord
  by_cases hpulse : 65536 ≤ (s.record x).acc + s.incrementFor x
  · simp only [if_pos hpulse, State.accumulate_pulse hpulse, State.pulse_record, State.record_setRecord_same]
    rw [(pulsedRecord_kept _).1]
    rfl
  · simp only [if_neg hpulse, State.accumulate_noPulse hpulse, State.record_setRecord_same]
    rfl

theorem State.WorkAt.counted {x : Circuit} {s : State} : s.WorkAt x (s.record x).calling (s.counted x) := by
  refine State.WorkAt.trans (t := s.accumulate x) ?_ (.setRecord _)
  by_cases hpulse : 65536 ≤ (s.record x).acc + s.incrementFor x
  · rw [State.accumulate_pulse hpulse]
    have hwork := State.WorkAt.pulse (x := x)
      (s := s.setRecord x { s.record x with acc := (s.record x).acc + s.incrementFor x - 65536 })
    rw [State.record_setRecord_same] at hwork
    exact (State.WorkAt.setRecord _).trans hwork
  · rw [State.accumulate_noPulse hpulse]
    exact .setRecord _

theorem CallRecord.charges_acc (r : CallRecord) (n : Nat) : ({ r with acc := n } : CallRecord).charges ↔ r.charges := by
  unfold CallRecord.charges
  exact Iff.rfl

theorem CallRecord.startsGrace_acc (r : CallRecord) (n : Nat) : ({ r with acc := n } : CallRecord).startsGrace ↔ r.startsGrace := by
  unfold CallRecord.startsGrace
  exact Iff.rfl

/-- The counts of the calling line after a tick at the record (R89, R93, R94). -/
theorem State.tickRecord_line {s : State} {x : Circuit} {l : Line} (hm : s.metered x = true) (hl : (s.record x).calling = some l) :
    (65536 ≤ (s.record x).acc + s.incrementFor x ∧ (s.record x).charges →
      ((s.tickRecord x).line l).pulses = (chargedEntry (s.line l)).pulses ∧
        ((s.tickRecord x).line l).fault = (chargedEntry (s.line l)).fault) ∧
    (¬ (65536 ≤ (s.record x).acc + s.incrementFor x ∧ (s.record x).charges) →
      ((s.tickRecord x).line l).pulses = (s.line l).pulses ∧ ((s.tickRecord x).line l).fault = (s.line l).fault) := by
  have hrest : (s.accumulate x).WorkAt x none (s.tickRecord x) := by
    rw [State.tickRecord_metered hm]
    exact (State.WorkAt.setRecord _).trans (.countGrace _)
  obtain ⟨hpulses, hfault⟩ := hrest.counts l nofun
  rw [hpulses, hfault]
  by_cases hpulse : 65536 ≤ (s.record x).acc + s.incrementFor x
  · rw [State.accumulate_pulse hpulse]
    have hline := State.pulse_line (x := x) (l := l)
      (s := s.setRecord x { s.record x with acc := (s.record x).acc + s.incrementFor x - 65536 })
      (by rw [State.record_setRecord_same]; exact hl)
    rw [State.record_setRecord_same, CallRecord.charges_acc] at hline
    exact ⟨fun h => hline.1 h.2, fun h => hline.2 fun hc => h ⟨hpulse, hc⟩⟩
  · rw [State.accumulate_noPulse hpulse]
    exact ⟨fun h => absurd h.1 hpulse, fun _ => ⟨rfl, rfl⟩⟩

theorem State.WorkAt.tickRecord {x : Circuit} {s : State} : s.WorkAt x (s.record x).calling (s.tickRecord x) := by
  by_cases h : s.metered x = true
  · rw [State.tickRecord_metered h]
    exact State.WorkAt.counted.trans (.countGrace _)
  · rw [State.tickRecord, if_neg h]
    exact .refl

/-- The record after a tick that does not end its grace (R115). -/
theorem State.tickRecord_record {s : State} {x : Circuit} (hm : s.metered x = true) :
    let r := tickedRecord (s.record x) (s.incrementFor x)
    ((s.record x).grace = none → (s.tickRecord x).record x = r) ∧
    (∀ n, (s.record x).grace ≠ none → r.grace = some n → 2 ≤ n → (s.tickRecord x).record x = { r with grace := some (n - 1) }) ∧
    ∀ n xm, (s.record x).grace ≠ none → r.grace = some n → n ≤ 1 → r.state = .answered → nextMade r.path = some xm →
      (s.tickRecord x).record x =
        { r with
          state := .clearing, cause := some .credit, settle := none, calledClear := none, grace := none, releasePending := false,
          path := markPath r.path xm .inFlight } := by
  intro r
  have hr : (s.counted x).record x = r := s.counted_record x
  rw [State.tickRecord_metered hm]
  refine ⟨fun hgrace => ?_, fun n hgrace hn hle => ?_, fun n xm hgrace hn hle hstate hmade => ?_⟩
  · rw [hgrace]
    exact hr
  · rw [Option.isSome_iff_ne_none.mpr hgrace]
    simp only [State.countGrace, hr, hn]
    rw [if_neg (by omega)]
    refine ((s.counted x).record_setRecord_same x _).trans ?_
    rw [hr]
  · rw [Option.isSome_iff_ne_none.mpr hgrace]
    simp only [State.countGrace, hr, hn]
    rw [if_pos hle, State.graceExpired, if_pos (by rw [hr, hn]; exact ⟨hstate, rfl⟩),
      State.enterClearing_made _ x .credit xm (by rw [hr]; exact hmade), State.clearedTo_record, hr, if_pos rfl]

/-- A tick whose pulse starts grace issues PAY TONE (R112 to R114). -/
theorem State.tickRecord_tone {s : State} {x : Circuit} (hm : s.metered x = true)
    (hpulse : 65536 ≤ (s.record x).acc + s.incrementFor x) (hstarts : (s.record x).startsGrace) (hgrace : (s.record x).grace = none) :
    .payTone x ∈ (s.tickRecord x).txQueue := by
  rw [State.tickRecord_metered hm, hgrace]
  have htone := State.pulse_tone (x := x)
    (s := s.setRecord x { s.record x with acc := (s.record x).acc + s.incrementFor x - 65536 })
    (by rw [State.record_setRecord_same, CallRecord.startsGrace_acc]; exact hstarts)
  rw [← State.accumulate_pulse hpulse] at htone
  exact htone

/-! ## The tick over the records (R73) -/

/-- `t` is `s` after a tick has reached the records of `xs`. -/
structure State.TickedAt (xs : List Circuit) (s t : State) : Prop where
  rest : s.RecordsOnly t
  others : ∀ y, y ∉ xs ∨ s.metered y = false → t.record y = s.record y
  cls : ∀ l, (t.line l).cls = (s.line l).cls
  counts : ∀ l, (∀ y ∈ xs, s.metered y = true → (s.record y).calling ≠ some l) →
    (t.line l).pulses = (s.line l).pulses ∧ (t.line l).fault = (s.line l).fault
  tones : ∀ y, y ∉ xs → .payTone y ∈ s.txQueue → .payTone y ∈ t.txQueue

theorem State.tickedAt_fold : ∀ (xs : List Circuit) (s : State), xs.Nodup → s.TickedAt xs (xs.foldl State.tickRecord s)
  | [], s, _ => ⟨rfl, fun _ _ => rfl, fun _ => rfl, fun _ _ => ⟨rfl, rfl⟩, fun _ _ => id⟩
  | x :: xs, s, hnodup => by
    obtain ⟨hx, hxs⟩ := List.nodup_cons.mp hnodup
    have hwork := State.WorkAt.tickRecord (x := x) (s := s)
    have hrest := State.tickedAt_fold xs (s.tickRecord x) hxs
    have hunmetered : s.metered x = false → s.tickRecord x = s := fun h => if_neg (by rw [h]; exact Bool.false_ne_true)
    have hmetered : ∀ y ∈ xs, (s.tickRecord x).record y = s.record y := fun y hy => hwork.others y fun h => hx (h ▸ hy)
    rw [List.foldl_cons]
    refine ⟨hwork.rest.trans hrest.rest, fun y hy => ?_, fun l => (hrest.cls l).trans (hwork.cls l), fun l hl => ?_,
      fun y hy hm => ?_⟩
    · have hhead : (s.tickRecord x).record y = s.record y := by
        by_cases hyx : y = x
        · subst hyx
          rw [hunmetered (hy.resolve_left fun h => h List.mem_cons_self)]
        · exact hwork.others y hyx
      refine (hrest.others y ?_).trans hhead
      rw [State.metered_congr hhead]
      exact hy.imp_left fun h hmem => h (List.mem_cons_of_mem _ hmem)
    · obtain ⟨hpulses, hfault⟩ := hrest.counts l fun y hy hm => by
        rw [hmetered y hy]
        exact hl y (List.mem_cons_of_mem _ hy) (by rwa [← State.metered_congr (hmetered y hy)])
      rw [hpulses, hfault]
      by_cases hm : s.metered x = true
      · exact hwork.counts l (hl x List.mem_cons_self hm)
      · rw [hunmetered (Bool.eq_false_of_not_eq_true hm)]
        exact ⟨rfl, rfl⟩
    · exact hrest.tones y (fun h => hy (List.mem_cons_of_mem _ h))
        (hwork.tones y (fun h => hy (h ▸ List.mem_cons_self)) hm)

theorem State.tickRecords_ticked (s : State) : s.TickedAt (List.finRange 56) s.tickRecords :=
  State.tickedAt_fold _ s (List.nodup_finRange 56)

/-- The record, the line and the tone of one record among all those of a tick: they are what a tick at that record alone makes of a state
`u` that agrees with `s` on them (R73). -/
theorem State.tickRecords_at (s : State) (x : Circuit) :
    ∃ u : State, s.RecordsOnly u ∧ u.record x = s.record x ∧ s.tickRecords.record x = (u.tickRecord x).record x ∧
      (.payTone x ∈ (u.tickRecord x).txQueue → .payTone x ∈ s.tickRecords.txQueue) ∧
      ∀ l, (∀ y, y ≠ x → s.metered y = true → (s.record y).calling ≠ some l) →
        ((u.line l).pulses = (s.line l).pulses ∧ (u.line l).fault = (s.line l).fault) ∧
        (s.tickRecords.line l).pulses = ((u.tickRecord x).line l).pulses ∧
          (s.tickRecords.line l).fault = ((u.tickRecord x).line l).fault := by
  obtain ⟨before, after, hsplit⟩ := List.append_of_mem (List.mem_finRange x)
  have hnodup := List.nodup_finRange 56
  rw [hsplit] at hnodup
  obtain ⟨hbefore, hafter', happart⟩ := List.nodup_append.mp hnodup
  obtain ⟨hxafter, hafter⟩ := List.nodup_cons.mp hafter'
  have hxbefore : x ∉ before := fun h => happart x h x List.mem_cons_self rfl
  have hfirst := State.tickedAt_fold before s hbefore
  have hlast := State.tickedAt_fold after ((before.foldl State.tickRecord s).tickRecord x) hafter
  have hticks : s.tickRecords = after.foldl State.tickRecord ((before.foldl State.tickRecord s).tickRecord x) := by
    rw [State.tickRecords, hsplit, List.foldl_append, List.foldl_cons]
  rw [← hticks] at hlast
  have hwork := State.WorkAt.tickRecord (x := x) (s := before.foldl State.tickRecord s)
  refine ⟨before.foldl State.tickRecord s, hfirst.rest, hfirst.others x (.inl hxbefore), hlast.others x (.inl hxafter),
    hlast.tones x hxafter, fun l hl => ⟨?_, ?_⟩⟩
  · exact hfirst.counts l fun y hy hm => hl y (fun h => hxbefore (h ▸ hy)) hm
  · refine hlast.counts l fun y hy hm => ?_
    have hyx : y ≠ x := fun h => hxafter (h ▸ hy)
    have hrecord : ((before.foldl State.tickRecord s).tickRecord x).record y = s.record y :=
      (hwork.others y hyx).trans (hfirst.others y (.inl fun h => happart y h y (List.mem_cons_of_mem _ hy) rfl))
    rw [hrecord]
    exact hl y hyx (by rwa [← State.metered_congr hrecord])

end Sys2Proof.Machine
end

section
/-!
PROOF. The metering tick (O46, O47).
-/

namespace Sys2Proof.Machine

set_option Elab.async false

/-! ## The advance of the clock after a tick (R74, R80, R81) -/

theorem State.advanceClock_offPort (s : State) :
    s.advanceClock.offPort =
      ({ s with
        records := s.advanceClock.records, band := s.advanceClock.band,
        tenths := if s.tenths < 9 then s.tenths + 1 else 0,
        second := if s.tenths < 9 then s.second else if s.second < 59 then s.second + 1 else 0,
        weekMinute := if s.tenths < 9 ∨ s.second < 59 then s.weekMinute
          else if s.weekMinute + 1 < 10080 then s.weekMinute + 1 else 0 } : State).offPort := by
  obtain ⟨hplain, hminute⟩ := s.advanceClock_spec
  by_cases h : s.tenths < 9 ∨ s.second < 59
  · rw [hplain h]
  · have hspec := hminute (by omega) (by omega)
    by_cases hband : s.advanceClock.band = s.band
    · have harb := hspec.same hband
      rw [harb.offPort, harb.records, hband]
    · have harb := (hspec.changed hband).1
      refine harb.offPort.trans ?_
      rw [State.offPort_report]

theorem State.advanceClock_record (s : State) (x : Circuit) :
    s.advanceClock.record x =
      if s.metered x then
        { s.record x with bandChanged := (s.record x).bandChanged || decide (s.advanceClock.band ≠ s.band) }
      else s.record x := by
  have hsame : ∀ t : State, t.records = s.records → t.band = s.band → t.record x =
      if s.metered x then { s.record x with bandChanged := (s.record x).bandChanged || decide (t.band ≠ s.band) }
      else s.record x := fun t hrecords hband => by
    rw [hband, State.record, hrecords]
    simp [State.record]
  obtain ⟨hplain, hminute⟩ := s.advanceClock_spec
  by_cases h : s.tenths < 9 ∨ s.second < 59
  · exact hsame _ (by rw [hplain h]) (by rw [hplain h])
  · have hspec := hminute (by omega) (by omega)
    by_cases hband : s.advanceClock.band = s.band
    · exact hsame _ (hspec.same hband).records hband
    · refine ((hspec.changed hband).2 x).trans ?_
      refine if_congr ?_ ?_ rfl
      · rw [State.metered, Bool.and_eq_true, decide_eq_true_eq, decide_eq_true_eq]
        exact Iff.rfl
      · rw [decide_eq_true hband, Bool.or_true]
        rfl

/-- `t` is `s` after a metering tick, but for what a tick may change (R73, R74). -/
def State.TickOnly (s t : State) : Prop :=
  State.ArbiterOnly
    { s with
      records := t.records, lines := t.lines, links := t.links, txQueue := t.txQueue, reports := t.reports,
      reportsLost := t.reportsLost, holdQueue := t.holdQueue, seqCounter := t.seqCounter, closingWaiters := t.closingWaiters,
      tickDivider := t.tickDivider, tenths := t.tenths, second := t.second, weekMinute := t.weekMinute, band := t.band } t

theorem State.TickOnly.trans {s t u : State} (h : s.TickOnly t) (h' : t.TickOnly u) : s.TickOnly u := by
  unfold State.TickOnly State.ArbiterOnly at *
  rw [h'] at *
  rw [h]

theorem State.RecordsOnly.tickOnly {s t : State} (h : s.RecordsOnly t) : s.TickOnly t := by
  unfold State.TickOnly State.ArbiterOnly
  rw [h]

theorem State.ArbiterOnly.tickOnly {s t : State} (h : State.ArbiterOnly s t) : s.TickOnly t := by
  unfold State.TickOnly State.ArbiterOnly
  rw [h]

theorem State.advanceClock_tickOnly (s : State) : s.TickOnly s.advanceClock := by
  obtain ⟨hplain, hminute⟩ := s.advanceClock_spec
  by_cases h : s.tenths < 9 ∨ s.second < 59
  · rw [hplain h]
    exact rfl
  · have hspec := hminute (by omega) (by omega)
    by_cases hband : s.advanceClock.band = s.band
    · exact State.TickOnly.trans (by exact rfl) (hspec.same hband).tickOnly
    · refine State.TickOnly.trans ?_ (hspec.changed hband).1.tickOnly
      rw [State.report_eq]
      exact rfl

/-- What METERING_TICK leaves, whatever the arbiter then does: `w` is the state after the records (R73, R74). -/
theorem exec_meteringTick {s : State} (hp : s.phase ≠ .held) :
    let w := ({ s with tickDivider := 0 } : State).tickRecords
    ∃ t, exec .meteringTick s = .next t ∧ t.offPort = w.advanceClock.offPort ∧
      (s.cycles = [] → State.ArbiterOnly w.advanceClock t) ∧ State.RecordsOnly { s with tickDivider := 0 } w := by
  intro w
  have hrest := ({ s with tickDivider := 0 } : State).tickRecords_ticked.rest
  refine ⟨_, running_next (fun s => s.meteringTick.askPort) hp, State.offPort_askPort _, fun hcycles => ?_, hrest⟩
  have hw : w.cycles = [] := (congrArg State.cycles hrest).trans hcycles
  have hclock : w.advanceClock.cycles = [] := by
    rw [show w.advanceClock.cycles = w.cycles by rw [w.advanceClock_tickOnly]]
    exact hw
  exact State.askPort_arbiterOnly _ hclock

theorem State.offPort_record {s t : State} (h : t.offPort = s.offPort) (x : Circuit) : t.record x = s.record x := by
  show t.offPort.record x = s.offPort.record x
  rw [h]

theorem State.offPort_clock {s t : State} (h : t.offPort = s.offPort) :
    t.tenths = s.tenths ∧ t.second = s.second ∧ t.weekMinute = s.weekMinute ∧ t.band = s.band ∧ t.tickDivider = s.tickDivider ∧
      t.timeUnset = s.timeUnset := by
  have hpart {α : Type} (f : State → α) : f t.offPort = f s.offPort := congrArg f h
  exact ⟨hpart State.tenths, hpart State.second, hpart State.weekMinute, hpart State.band, hpart State.tickDivider,
    hpart State.timeUnset⟩

theorem State.offPort_line {s t : State} (h : t.offPort = s.offPort) (l : Line) : t.line l = s.line l := by
  show t.offPort.line l = s.offPort.line l
  rw [h]

theorem State.offPort_txQueue {s t : State} (h : t.offPort = s.offPort) : t.txQueue = s.txQueue := by
  show t.offPort.txQueue = s.offPort.txQueue
  rw [h]

theorem State.advanceClock_line (s : State) (l : Line) : s.advanceClock.line l = s.line l :=
  State.offPort_line s.advanceClock_offPort l

theorem State.advanceClock_txQueue (s : State) : s.advanceClock.txQueue = s.txQueue := by
  rw [State.offPort_txQueue s.advanceClock_offPort]

/-- A BAND CHANGE report stands at the tail of the queue, or is lost at a full one (R81, R168). -/
theorem State.report_last (s : State) (r : Report) :
    (s.report r).reports.getLast? = some r ∨ (32 ≤ (s.report r).reports.length ∧ (s.report r).reportsLost = true) := by
  unfold State.report
  split
  next => exact .inl List.getLast?_concat
  next h => exact .inr ⟨Nat.le_of_not_lt h, rfl⟩

/-- The counts of a line that a tick leaves: those of the record whose calling line it is, no other metered record naming it (R93). -/
theorem State.tickRecords_line {s : State} {x : Circuit} {l : Line} (hm : s.metered x = true) (hl : (s.record x).calling = some l)
    (hno : ∀ y, y ≠ x → s.metered y = true → (s.record y).calling ≠ some l) :
    (65536 ≤ (s.record x).acc + s.incrementFor x ∧ (s.record x).charges →
      (s.tickRecords.line l).pulses = (chargedEntry (s.line l)).pulses ∧ (s.tickRecords.line l).fault = (chargedEntry (s.line l)).fault) ∧
    (¬ (65536 ≤ (s.record x).acc + s.incrementFor x ∧ (s.record x).charges) →
      (s.tickRecords.line l).pulses = (s.line l).pulses ∧ (s.tickRecords.line l).fault = (s.line l).fault) := by
  obtain ⟨u, honly, hrecord, -, -, hlines⟩ := s.tickRecords_at x
  obtain ⟨⟨hpulses, hfault⟩, hticked, hticked'⟩ := hlines l hno
  have hinc : u.incrementFor x = s.incrementFor x := by
    rw [State.incrementFor, hrecord, honly]
    rfl
  have hentry : (chargedEntry (u.line l)).pulses = (chargedEntry (s.line l)).pulses ∧
      (chargedEntry (u.line l)).fault = (chargedEntry (s.line l)).fault := by
    unfold chargedEntry
    rw [hpulses]
    split
    · exact ⟨rfl, hfault⟩
    · exact ⟨rfl, rfl⟩
  have hline := u.tickRecord_line (l := l) (by rw [State.metered_congr hrecord]; exact hm) (by rw [hrecord]; exact hl)
  rw [hrecord, hinc, hentry.1, hentry.2, hpulses, hfault] at hline
  rw [hticked, hticked']
  exact hline

/-- The record of an answered call after the tick at the records, and the tone it issues: those of a state that agrees on it (R89, R115). -/
theorem State.tickRecords_record (s : State) (x : Circuit) :
    ∃ u : State, u.record x = s.record x ∧ u.metered x = s.metered x ∧ u.incrementFor x = s.incrementFor x ∧
      s.tickRecords.record x = (u.tickRecord x).record x ∧
      (.payTone x ∈ (u.tickRecord x).txQueue → .payTone x ∈ s.tickRecords.txQueue) := by
  obtain ⟨u, honly, hrecord, hticked, htone, -⟩ := s.tickRecords_at x
  refine ⟨u, hrecord, State.metered_congr hrecord, ?_, hticked, htone⟩
  rw [State.incrementFor, hrecord, honly]
  rfl

/-! ## Ordinary calls (O46) -/

/-- The record of a call that is not a coin call after its part of a tick (R89, R90, R93). -/
theorem tickedRecord_ordinary {r : CallRecord} (h : r.coin = false) (inc : Nat) :
    tickedRecord r inc =
      { r with
        acc := if 65536 ≤ r.acc + inc then r.acc + inc - 65536 else r.acc + inc,
        paid := if r.paid < 65535 then r.paid + (if 65536 ≤ r.acc + inc then 1 else 0) else r.paid,
        duration := if r.duration < 16777215 then r.duration + 1 else r.duration } := by
  by_cases hpulse : 65536 ≤ r.acc + inc
  · simp [tickedRecord, pulsedRecord, saturatingSucc, hpulse, h]
  · simp [tickedRecord, saturatingSucc, hpulse]

/-- The record of an answered call, once the clock has advanced after a tick (R81). -/
theorem State.tick_record {s t : State} {x : Circuit} (hm : s.metered x = true) (hoff : t.offPort = s.advanceClock.offPort)
    {r : CallRecord} (hr : s.record x = r) : t.record x = { r with bandChanged := r.bandChanged || decide (t.band ≠ s.band) } := by
  obtain ⟨-, -, -, hband, -⟩ := State.offPort_clock hoff
  rw [State.offPort_record hoff, State.advanceClock_record, if_pos hm, hr, hband]

/-- Settles O46: the tick reaches the records one by one, then the clock. -/
theorem tickMetersOrdinaryCalls : Obligations.TickMetersOrdinaryCalls := by
  unfold Obligations.TickMetersOrdinaryCalls
  intro s hp
  obtain ⟨t, ht, hoff, harb, honly⟩ := exec_meteringTick hp
  let s0 : State := { s with tickDivider := 0 }
  have hticked : s0.TickedAt (List.finRange 56) s0.tickRecords := s0.tickRecords_ticked
  generalize hw : s0.tickRecords = w at hoff harb honly hticked
  have hclock := hoff.trans w.advanceClock_offPort
  have hline : ∀ l, t.line l = w.line l := fun l => (State.offPort_line hoff l).trans (w.advanceClock_line l)
  have hband : w.band = s.band := by rw [honly]
  have htenths : w.tenths = s.tenths := by rw [honly]
  have hsecond : w.second = s.second := by rw [honly]
  have hminute : w.weekMinute = s.weekMinute := by rw [honly]
  obtain ⟨-, -, -, hbandT, -⟩ := State.offPort_clock hoff
  obtain ⟨htenthsT, hsecondT, hminuteT, -, hdividerT, hunsetT⟩ := State.offPort_clock hclock
  simp only [htenths, hsecond, hminute] at htenthsT hsecondT hminuteT
  have hdivider : t.tickDivider = 0 := hdividerT.trans (by rw [honly])
  have hmetered : ∀ x, s0.metered x = true ↔ (s.record x).state = .answered ∧ x.val < 48 := s0.metered_iff
  refine ⟨t, ht, fun x hx => ?_, fun x hstate hlt hcoin hgrace => ?_, fun x l hstate hlt hcoin hcalling hfull hno => ?_, fun l hl => ?_,
    fun l => ?_, ?_, ?_, htenthsT, hsecondT, hminuteT, fun h => ?_, fun hnine hfifty => ?_, fun hcycles => ?_⟩
  · have hidle : s0.metered x = false := Bool.eq_false_of_not_eq_true fun h => by
      obtain ⟨hstate, hlt⟩ := (hmetered x).mp h
      rcases hx with hne | hge
      · exact hne hstate
      · omega
    have hrecord : w.record x = s.record x := hticked.others x (.inr hidle)
    rw [State.offPort_record hoff, State.advanceClock_record,
      if_neg (by rw [State.metered_congr (s := s0) (t := w) hrecord, hidle]; exact Bool.false_ne_true), hrecord]
  · have hm := (hmetered x).mpr ⟨hstate, hlt⟩
    obtain ⟨u, hu, hum, hinc, hux, -⟩ := s0.tickRecords_record x
    rw [hw] at hux
    have hrecord : w.record x = tickedRecord (s.record x) (s0.incrementFor x) := by
      refine hux.trans ?_
      rw [(u.tickRecord_record (hum.trans hm)).1 (by rw [hu]; exact hgrace), hu, hinc]
      rfl
    have hwm : w.metered x = true := (w.metered_iff x).mpr ⟨by rw [hrecord, tickedRecord_ordinary hcoin]; exact hstate, hlt⟩
    refine ⟨?_, fun l hl hroom hno => ?_⟩
    · rw [State.tick_record hwm hoff hrecord, hband, tickedRecord_ordinary hcoin]
      rfl
    · have hcounts := s0.tickRecords_line hm hl fun y hy hym => hno y hy ((hmetered y).mp hym).1 ((hmetered y).mp hym).2
      rw [hw] at hcounts
      rw [hline]
      split
      next hpulse =>
        refine (hcounts.1 ⟨hpulse, .inl hcoin⟩).1.trans ?_
        exact congrArg LineEntry.pulses (if_pos hroom)
      next hpulse => exact (hcounts.2 fun h => hpulse h.1).1
  · have hm := (hmetered x).mpr ⟨hstate, hlt⟩
    have hcounts := s0.tickRecords_line hm hcalling fun y hy hym => hno y hy ((hmetered y).mp hym).1 ((hmetered y).mp hym).2
    rw [hw] at hcounts
    have hentry : chargedEntry (s.line l) = { s.line l with fault := .saturated } := if_neg (by omega)
    rw [hline]
    by_cases hpulse : 65536 ≤ (s.record x).acc + s0.incrementFor x
    · obtain ⟨hpulses, hfault⟩ := hcounts.1 ⟨hpulse, .inl hcoin⟩
      have hentry' : chargedEntry (s0.line l) = _ := hentry
      rw [hentry'] at hpulses hfault
      refine ⟨hpulses.trans hfull, hfault.trans ?_⟩
      exact (if_pos hpulse).symm
    · obtain ⟨hpulses, hfault⟩ := hcounts.2 fun h => hpulse h.1
      refine ⟨hpulses.trans hfull, hfault.trans ?_⟩
      exact (if_neg hpulse).symm
  · rw [hline]
    exact hticked.counts l fun y _ hym => hl y ((hmetered y).mp hym).1 ((hmetered y).mp hym).2
  · rw [hline]
    exact hticked.cls l
  · exact hdivider
  · exact hunsetT.trans (by rw [honly])
  · have hplain := w.advanceClock_spec.1 (by rw [htenths, hsecond]; exact h)
    rw [hbandT, hplain]
    exact hband
  · have hspec := w.advanceClock_spec.2 (by omega) (by omega)
    have hrule := hspec.rule
    rw [htenths, hsecond, hminute, ← hminuteT, ← hbandT] at hrule
    refine ⟨?_, fun hcycles hne => ?_⟩
    · rw [honly] at hrule
      exact ⟨hrule.unset, hrule.thisWeek, hrule.lastWeek, hrule.empty⟩
    · have hreported := (hspec.changed (by rw [← hbandT]; exact fun h => hne (h.trans hband))).1.trans (harb hcycles)
      rw [hbandT, hreported]
      exact State.report_last _ _
  · have htick : s0.TickOnly t := (honly.tickOnly.trans w.advanceClock_tickOnly).trans (harb hcycles).tickOnly
    unfold State.TickOnly at htick
    rw [hdivider] at htick
    exact htick

end Sys2Proof.Machine
end

section
/-!
PROOF. The metering tick at a coin record (O47).
-/

namespace Sys2Proof.Machine

set_option Elab.async false

section CoinRecord

variable {r : CallRecord} {inc : Nat}

/-- The record of a call after its part of a tick without a pulse (R89, R90). -/
theorem tickedRecord_noPulse (h : r.acc + inc < 65536) :
    tickedRecord r inc = { r with acc := r.acc + inc, duration := saturatingSucc r.duration 16777215 } := by
  simp only [tickedRecord, if_neg (Nat.not_le.mpr h)]

/-- The record of a call after its part of a tick with a pulse that leaves `r'` (R89, R90). -/
theorem tickedRecord_pulse (h : 65536 ≤ r.acc + inc) {r' : CallRecord}
    (hr' : pulsedRecord { r with acc := r.acc + inc - 65536 } = r') :
    tickedRecord r inc = { r' with duration := saturatingSucc r.duration 16777215 } := by
  simp only [tickedRecord, if_pos h, hr']

/-- A coin record whose credit pays the pulse and outlasts it (R112). -/
theorem pulsedRecord_paid (hcoin : r.coin = true) (h : 2 ≤ r.credit) :
    pulsedRecord r = { r with credit := r.credit - 1, paid := saturatingSucc r.paid 65535 } := by
  rw [pulsedRecord, if_pos hcoin, if_neg (by omega), if_neg (by omega)]

/-- A coin record whose last credit pays the pulse (R112, R114). -/
theorem pulsedRecord_exhausted (hcoin : r.coin = true) (h : r.credit = 1) :
    pulsedRecord r = { r with credit := 0, paid := saturatingSucc r.paid 65535, grace := some 100, payToneSent := true } := by
  rw [pulsedRecord, if_pos hcoin, if_neg (by omega), if_pos h]

/-- A coin record that owes its first pulse (R113, R114). -/
theorem pulsedRecord_firstOwed (hcoin : r.coin = true) (h : r.credit = 0) (hgrace : r.grace = none) :
    pulsedRecord r = { r with owed := saturatingSucc r.owed 127, grace := some 100, payToneSent := true } := by
  rw [pulsedRecord, if_pos hcoin, if_pos h, if_neg (by rw [hgrace]; exact Bool.false_ne_true)]

/-- A coin record that owes a pulse in its grace (R113). -/
theorem pulsedRecord_owed (hcoin : r.coin = true) (h : r.credit = 0) {n : Nat} (hgrace : r.grace = some n) :
    pulsedRecord r = { r with owed := saturatingSucc r.owed 127 } := by
  rw [pulsedRecord, if_pos hcoin, if_pos h, if_pos (by rw [hgrace]; rfl)]

/-- The record of a coin call in its grace after its part of a tick: a pulse is owed (R113). -/
theorem tickedRecord_inGrace (hcoin : r.coin = true) (h : r.credit = 0) {n : Nat} (hgrace : r.grace = some n) :
    tickedRecord r inc =
      { r with
        acc := if 65536 ≤ r.acc + inc then r.acc + inc - 65536 else r.acc + inc, duration := saturatingSucc r.duration 16777215,
        owed := if 65536 ≤ r.acc + inc then saturatingSucc r.owed 127 else r.owed } := by
  by_cases hpulse : 65536 ≤ r.acc + inc
  · rw [tickedRecord_pulse hpulse (pulsedRecord_owed hcoin h hgrace), if_pos hpulse, if_pos hpulse]
  · rw [tickedRecord_noPulse (Nat.lt_of_not_le hpulse), if_neg hpulse, if_neg hpulse]

end CoinRecord

/-- Settles O47: the pulse, the grace count and the clock, in the order of R115. -/
theorem tickMetersCoinCalls : Obligations.TickMetersCoinCalls := by
  unfold Obligations.TickMetersCoinCalls
  intro s x hp hstate hlt hcoin hleft hcredit hpaid howed
  obtain ⟨t, ht, hoff, -, honly⟩ := exec_meteringTick hp
  let s0 : State := { s with tickDivider := 0 }
  have hm : s0.metered x = true := (s0.metered_iff x).mpr ⟨hstate, hlt⟩
  obtain ⟨u, hu, hum, hinc, hux, htone⟩ := s0.tickRecords_record x
  have hlines := fun l hl hno => s0.tickRecords_line (l := l) hm hl hno
  generalize hw : s0.tickRecords = w at hoff honly hux htone hlines
  have hum' : u.metered x = true := hum.trans hm
  have htickedRecord := u.tickRecord_record hum'
  have htickedTone := u.tickRecord_tone hum'
  have hu' : u.record x = s.record x := hu
  rw [hu', hinc, ← hux] at htickedRecord
  rw [hu', hinc] at htickedTone
  generalize hr : s.record x = r at *
  have hincrement : s0.incrementFor x = (s.tariffEntry r.distBand s.band).increment := by
    rw [← hr]
    rfl
  rw [hincrement] at htickedRecord htickedTone hlines
  have hpaid' : saturatingSucc r.paid 65535 = min 65535 (r.paid + 1) := saturatingSucc_eq_min _ _ hpaid
  have howed' : saturatingSucc r.owed 127 = min 127 (r.owed + 1) := saturatingSucc_eq_min _ _ howed
  have hflagged : ∀ r', w.record x = r' → r'.state = .answered →
      t.record x = { r' with bandChanged := r'.bandChanged || decide (t.band ≠ w.band) } := fun r' hr' hs =>
    State.tick_record ((w.metered_iff x).mpr ⟨by rw [hr']; exact hs, hlt⟩) hoff hr'
  have htx : t.txQueue = w.txQueue := (State.offPort_txQueue hoff).trans w.advanceClock_txQueue
  obtain ⟨hidle, hcounts, hexpires⟩ := htickedRecord
  refine ⟨t, r.bandChanged || decide (t.band ≠ w.band), ht, fun hsum hgrace => ?_, fun hsum hcr => ?_, fun hsum hcr => ?_,
    fun hsum hcr hgrace => ?_, fun n hsum hcr hgrace hn => ?_, fun xm hgrace hmade => ?_, fun l hl hroom hno => ?_⟩
  · cases hg : r.grace with
    | none =>
      have hX := hidle hg
      rw [tickedRecord_noPulse hsum] at hX
      rw [hflagged _ hX hstate, hg]
      rfl
    | some n =>
      have hone := hleft n hg
      have hne : n ≠ 1 := fun h => hgrace (h ▸ hg)
      have hX := hcounts n (by rw [hg]; exact Option.some_ne_none n) (by rw [tickedRecord_noPulse hsum]; exact hg) (by omega)
      rw [tickedRecord_noPulse hsum] at hX
      exact hflagged _ hX hstate
  · have hX := hidle (hcredit (by omega))
    rw [tickedRecord_pulse hsum (pulsedRecord_paid hcoin hcr)] at hX
    rw [hflagged _ hX hstate, ← hpaid']
    rfl
  · have hgrace := hcredit (by omega)
    have hX := hidle hgrace
    rw [tickedRecord_pulse hsum (pulsedRecord_exhausted hcoin hcr)] at hX
    refine ⟨?_, ?_⟩
    · rw [hflagged _ hX hstate, ← hpaid']
      rfl
    · rw [htx]
      exact htone (htickedTone hsum ⟨hcoin, .inl hcr⟩ hgrace)
  · have hX := hidle hgrace
    rw [tickedRecord_pulse hsum (pulsedRecord_firstOwed hcoin hcr hgrace)] at hX
    refine ⟨?_, ?_⟩
    · rw [hflagged _ hX hstate, ← howed']
      rfl
    · rw [htx]
      exact htone (htickedTone hsum ⟨hcoin, .inr ⟨hcr, hgrace⟩⟩ hgrace)
  · have hX := hcounts n (by rw [hgrace]; exact Option.some_ne_none n)
      (by rw [tickedRecord_inGrace hcoin hcr hgrace]; exact hgrace) hn
    rw [tickedRecord_inGrace hcoin hcr hgrace, if_pos hsum, if_pos hsum] at hX
    rw [hflagged _ hX hstate, ← howed']
    rfl
  · have hcr : r.credit = 0 := by
      by_contra h
      exact Option.some_ne_none 1 (hgrace.symm.trans (hcredit (Nat.pos_of_ne_zero h)))
    have hX := hexpires 1 xm (by rw [hgrace]; exact Option.some_ne_none 1)
      (by rw [tickedRecord_inGrace hcoin hcr hgrace]; exact hgrace) (le_refl 1)
      (by rw [tickedRecord_inGrace hcoin hcr hgrace]; exact hstate) (by rw [tickedRecord_inGrace hcoin hcr hgrace]; exact hmade)
    rw [tickedRecord_inGrace hcoin hcr hgrace] at hX
    have hcleared : w.metered x = false := Bool.eq_false_of_not_eq_true fun h => by
      have hw' := ((w.metered_iff x).mp h).1
      rw [hX] at hw'
      exact CallState.noConfusion hw'
    rw [State.offPort_record hoff, State.advanceClock_record, hcleared, hX, howed']
    rfl
  · have hcounts' := hlines l (by rw [← hr] at hl; exact hl) fun y hy hym =>
      hno y hy ((s0.metered_iff y).mp hym).1 ((s0.metered_iff y).mp hym).2
    have hrecord : s0.record x = r := hr
    rw [hrecord] at hcounts'
    rw [State.offPort_line hoff, State.advanceClock_line]
    split
    next h =>
      refine (hcounts'.1 ⟨h.1, .inr (Nat.pos_iff_ne_zero.mp h.2)⟩).1.trans ?_
      exact congrArg LineEntry.pulses (if_pos hroom)
    next h =>
      refine (hcounts'.2 fun hc => h ⟨hc.1, ?_⟩).1
      exact Nat.pos_of_ne_zero (hc.2.resolve_left (by rw [hcoin]; exact Bool.noConfusion))

end Sys2Proof.Machine
end

section
/-!
PROOF. Supervision: the changes of the points and the timers of a record (O50, O51, O53).
-/

namespace Sys2Proof.Machine

set_option Elab.async false

/-! ## Recognised changes (R40) -/

theorem pointCircuit_fPoint (x : Circuit) : pointCircuit (fPoint x) = x := Fin.ext (show 2 * x.val / 2 = x.val by omega)

theorem pointCircuit_bPoint (x : Circuit) : pointCircuit (bPoint x) = x := Fin.ext (show (2 * x.val + 1) / 2 = x.val by omega)

theorem fPoint_even (x : Circuit) : ((fPoint x).val % 2 == 0) = true := by
  rw [beq_iff_eq]
  exact Nat.mul_mod_right 2 x.val

theorem bPoint_odd (x : Circuit) : ((bPoint x).val % 2 == 0) = false := by
  rw [beq_eq_false_iff_ne]
  show (2 * x.val + 1) % 2 ≠ 0
  omega

theorem State.recognise_f (s : State) (x : Circuit) (present : Bool) :
    s.recognise (fPoint x) present =
      if present then (s.setPoint (fPoint x) { present := present, count := none }).fAppeared x
      else (s.setPoint (fPoint x) { present := present, count := none }).fDisappeared x := by
  simp only [State.recognise, pointCircuit_fPoint, fPoint_even]
  cases present <;> rfl

theorem State.recognise_b (s : State) (x : Circuit) (present : Bool) :
    s.recognise (bPoint x) present =
      if present then (s.setPoint (bPoint x) { present := present, count := none }).bAppeared x
      else (s.setPoint (bPoint x) { present := present, count := none }).bDisappeared x := by
  simp only [State.recognise, pointCircuit_bPoint, bPoint_odd]
  cases present <;> rfl

theorem State.seize_reports (s : State) (x : Circuit) : (s.seize x).attnActive = true := by
  rw [State.attnActive_iff]
  intro h
  rcases State.report_last (s.modifyRecord x fun r => { r with state := .seized }) (.seize x) with hlast | ⟨hlen, -⟩
  · rw [show (State.report _ (.seize x)).reports = [] from h] at hlast
    exact absurd hlast nofun
  · rw [show (State.report _ (.seize x)).reports = [] from h] at hlen
    exact absurd hlen (by decide)

/-- F's disappearance at a record that it clears (R44). -/
theorem State.fDisappeared_clears {s : State} {x : Circuit} (h : (s.record x).state = .answered ∨
    ((s.record x).state = .ringing ∧ (s.record x).settle = none)) : s.fDisappeared x = s.enterClearing x .callerClear := by
  unfold State.fDisappeared
  rcases h with hs | ⟨hs, hsettle⟩
  · simp only [hs]
  · simp only [hs, hsettle]
    rfl

/-- F's disappearance at a record that it does not concern (R40). -/
theorem State.fDisappeared_other {s : State} {x : Circuit} (hr : (s.record x).state = .ringing → (s.record x).settle ≠ none)
    (ha : (s.record x).state ≠ .answered) (hs : (s.record x).state ≠ .seized) : s.fDisappeared x = s := by
  unfold State.fDisappeared
  cases h : (s.record x).state with
  | seized => exact absurd h hs
  | answered => exact absurd h ha
  | ringing => exact if_pos (Option.isSome_iff_ne_none.mpr (hr h))
  | _ => rfl

theorem calledClearPeriods_eq (x : Circuit) : calledClearPeriods x = if 24 ≤ x.val ∧ x.val < 48 then 8192000 else 245760000 := by
  have hkind : circuitKind x = .outgoing ↔ 24 ≤ x.val ∧ x.val < 48 := by
    unfold circuitKind
    split_ifs <;> simp <;> omega
  exact if_congr hkind rfl rfl

/-- Settles O50: the point is set, and the change taken by the state of the record. -/
theorem supervisionChangesTaken : Obligations.SupervisionChangesTaken := by
  unfold Obligations.SupervisionChangesTaken
  intro s x hp hcycles
  refine ⟨?_, ?_, ?_⟩
  · intro u
    have hexec : exec (.fAppears x) s = .next (u.fAppeared x) :=
      (running_next (fun s => s.recognise (fPoint x) true) hp).trans (congrArg _ (s.recognise_f x true))
    have hseized : ∀ hfree : (s.record x).state = .free, 48 ≤ x.val → u.fAppeared x = u.seize x := fun hfree hx =>
      if_pos ⟨hfree, (circuitKind_incoming_iff x).mpr hx⟩
    refine ⟨?_, fun hfree hx => ⟨_, hexec, by rw [hseized hfree hx]; exact u.seize_reports x⟩⟩
    rw [hexec]
    split
    next h => rw [hseized h.1 h.2]; rfl
    next h => exact congrArg _ (if_neg fun hc => h ⟨hc.1, (circuitKind_incoming_iff x).mp hc.2⟩)
  · intro u
    have hexec : exec (.fDisappears x) s = .next (u.fDisappeared x).askPort :=
      (running_next (fun s => (s.recognise (fPoint x) false).askPort) hp).trans
        (congrArg (fun v => Host.Outcome.next (State.askPort v)) (s.recognise_f x false))
    refine ⟨fun hs => ?_, fun xp hs hmade => ?_, fun hr ha hs => ?_⟩
    · have habandoned : u.fDisappeared x = (u.enterFree x).report (.abandon x) := by
        have hs' : (u.record x).state = .seized := hs
        simp only [State.fDisappeared, hs']
      rw [habandoned] at hexec
      exact ⟨_, hexec, State.askPort_arbiterOnly _ (by rw [State.report_cycles]; exact hcycles)⟩
    · rw [State.fDisappeared_clears (s := u) hs] at hexec
      exact ⟨_, hexec, (State.enterClearing_arbiter .callerClear (w := u) hcycles rfl).1 xp hmade⟩
    · rw [State.fDisappeared_other (s := u) hr ha hs] at hexec
      exact ⟨_, hexec, State.askPort_arbiterOnly u hcycles⟩
  · intro u
    refine (running_next (fun s => s.recognise (bPoint x) false) hp).trans (congrArg _ ((s.recognise_b x false).trans ?_))
    rw [← calledClearPeriods_eq]
    rfl

/-! ## Answer (R43, R91) -/

theorem State.report_setRecord (s : State) (e : Report) (x : Circuit) (r : CallRecord) :
    (s.report e).setRecord x r = (s.setRecord x r).report e := by
  simp only [State.report_eq]
  rfl

theorem State.report_setLine (s : State) (e : Report) (l : Line) (v : LineEntry) :
    (s.report e).setLine l v = (s.setLine l v).report e := by
  simp only [State.report_eq]
  rfl

theorem State.setRecord_twice (s : State) (x : Circuit) (r r' : CallRecord) : (s.setRecord x r).setRecord x r' = s.setRecord x r' := by
  simp [State.setRecord]

theorem State.chargeLine_setRecord (s : State) (l : Line) (x : Circuit) (r : CallRecord) :
    (s.setRecord x r).chargeLine l = (s.chargeLine l).setRecord x r := by
  simp only [State.chargeLine, State.report_eq]
  have hline : (s.setRecord x r).line l = s.line l := rfl
  rw [hline]
  split_ifs <;> rfl

/-- The pulses of a record that is not a coin record are paid, and charged one by one to its line (R92, R93). -/
theorem State.pulses_charged {x : Circuit} {l : Line} : ∀ (n : Nat) (s : State), (s.record x).calling = some l →
    (s.record x).coin = false → (s.record x).paid + n ≤ 65535 →
    s.pulses x n = (s.setRecord x { s.record x with paid := (s.record x).paid + n }).chargeSettled x n
  | 0, s, _, _, _ => (s.setRecord_self x _ rfl).symm
  | n + 1, s, hl, hcoin, hpaid => by
    have hsucc : saturatingSucc (s.record x).paid Config.countMax = (s.record x).paid + 1 := by
      unfold saturatingSucc Config.countMax
      rw [if_pos (by omega)]
    have hpulse : s.pulse x = (s.chargeLine l).setRecord x { s.record x with paid := (s.record x).paid + 1 } := by
      simp only [State.pulse, hcoin, Bool.false_eq_true, if_false, State.ordinaryPulse, State.modifyRecord, hsucc]
      rw [State.chargeCaller_line (by rw [State.record_setRecord_same]; exact hl), State.chargeLine_setRecord]
    show (s.pulse x).pulses x n = _
    rw [hpulse, State.pulses_charged n ((s.chargeLine l).setRecord x { s.record x with paid := (s.record x).paid + 1 }) (by rw [State.record_setRecord_same]; exact hl)
      (by rw [State.record_setRecord_same]; exact hcoin)
      (by rw [State.record_setRecord_same]; exact (Nat.add_right_comm _ 1 n).trans_le hpaid),
      State.record_setRecord_same, State.setRecord_twice, State.chargeSettled_succ,
      State.chargeCaller_line (by rw [State.record_setRecord_same]; exact hl), State.chargeLine_setRecord, Nat.add_assoc,
      Nat.add_comm 1 n]

/-- A record that is local or outgoing, answered, before its initial pulses (R43). -/
def State.answeredRecord (s : State) (r : CallRecord) : CallRecord :=
  { r with
    state := .answered, stamp := some { band := s.band, time := some (s.weekMinute, s.second) }, timeUnsetAtAnswer := s.timeUnset,
    duration := 0, acc := 0 }

theorem State.answer_metered {s : State} {x : Circuit} (hx : x.val < 48) :
    s.answer x =
      ((s.setRecord x (s.answeredRecord (s.record x))).report (.answer x s.band)).pulses x
        (s.tariffEntry (s.record x).distBand s.band).initial := by
  unfold State.answer
  rw [if_neg (by rw [circuitKind_incoming_iff]; omega)]
  rfl

theorem State.bAppeared_answers {s : State} {x : Circuit} (hs : (s.record x).state = .ringing) (hsettle : (s.record x).settle = none) :
    s.bAppeared x = s.answer x := by
  simp only [State.bAppeared, hs, hsettle]
  rfl

theorem State.bAppeared_other {s : State} {x : Circuit} (hr : (s.record x).state = .ringing → (s.record x).settle ≠ none)
    (ha : (s.record x).state = .answered → (s.record x).calledClear = none) : s.bAppeared x = s := by
  unfold State.bAppeared
  cases h : (s.record x).state with
  | ringing => exact if_pos (Option.isSome_iff_ne_none.mpr (hr h))
  | answered => exact if_neg (by rw [ha h]; exact Bool.false_ne_true)
  | _ => rfl

/-- B appears at a circuit: its point is set, and the record takes it (R40). -/
theorem exec_bAppears {s : State} (x : Circuit) (hp : s.phase ≠ .held) :
    exec (.bAppears x) s = .next ((s.setPoint (bPoint x) { present := true, count := none }).bAppeared x).askPort :=
  (running_next (fun s => (s.recognise (bPoint x) true).askPort) hp).trans
    (congrArg (fun v => Host.Outcome.next (State.askPort v)) (s.recognise_b x true))

/-- Settles O51: the answer, the re-answer, or the point alone. -/
theorem bAppearsAnswers : Obligations.BAppearsAnswers := by
  unfold Obligations.BAppearsAnswers
  intro s x hp hcycles u r
  have hexec : exec (.bAppears x) s = .next (u.bAppeared x).askPort := exec_bAppears x hp
  have hr : u.record x = r := rfl
  refine ⟨fun hs hsettle hx => ?_, fun l hs hsettle hx hcoin hl => ?_, fun l hs hsettle hx hcoin hl => ?_, fun hs hcc => ?_,
    fun hring hans => ?_⟩
  · have hanswer : u.answer x = _ := if_pos ((circuitKind_incoming_iff x).mpr hx)
    rw [State.bAppeared_answers (s := u) hs hsettle, hanswer] at hexec
    exact ⟨_, hexec, State.askPort_arbiterOnly _ (by rw [State.report_cycles]; exact hcycles)⟩
  · intro i hpaid hroom
    have hpulses := State.pulses_ordinary x l i ((u.setRecord x (u.answeredRecord r)).report (.answer x s.band))
      (by rw [State.record_report, State.record_setRecord_same]; exact hl)
      (by rw [State.record_report, State.record_setRecord_same]; exact hcoin)
      (by rw [State.record_report, State.record_setRecord_same]; exact hpaid) (by rw [State.line_report]; exact hroom)
    rw [State.record_report, State.record_setRecord_same, State.line_report, State.report_setRecord, State.setRecord_twice,
      State.report_setLine] at hpulses
    have hanswer : u.answer x = _ := (State.answer_metered (s := u) hx).trans hpulses
    rw [State.bAppeared_answers (s := u) hs hsettle, hanswer] at hexec
    exact ⟨_, hexec, State.askPort_arbiterOnly _ (by rw [State.report_cycles]; exact hcycles)⟩
  · intro i hpaid hle hover v
    have hpulses := State.pulses_charged (l := l) i ((u.setRecord x (u.answeredRecord r)).report (.answer x s.band))
      (by rw [State.record_report, State.record_setRecord_same]; exact hl)
      (by rw [State.record_report, State.record_setRecord_same]; exact hcoin)
      (by rw [State.record_report, State.record_setRecord_same]; exact hpaid)
    rw [State.record_report, State.record_setRecord_same, State.report_setRecord, State.setRecord_twice,
      State.chargeSettled_overflow (l := l) (by rw [State.record_report, State.record_setRecord_same]; exact hl)
        (by rw [State.line_report]; exact hle) (by rw [State.line_report]; exact hover), State.line_report,
      State.report_setLine] at hpulses
    have hanswer : u.answer x = (if (s.line l).fault = .saturated then v else v.report (.meterFault l .saturated)) :=
      (State.answer_metered (s := u) hx).trans hpulses
    rw [State.bAppeared_answers (s := u) hs hsettle, hanswer] at hexec
    refine ⟨_, hexec, State.askPort_arbiterOnly _ ?_⟩
    split <;> simp only [State.report_cycles, v] <;> exact hcycles
  · have hreanswer : u.bAppeared x = (u.setRecord x { r with calledClear := none, reAnswer := true }).report (.reAnswer x) := by
      have hs' : (u.record x).state = .answered := hs
      simp only [State.bAppeared, hs']
      exact if_pos (Option.isSome_iff_ne_none.mpr hcc)
    rw [hreanswer] at hexec
    exact ⟨_, hexec, State.askPort_arbiterOnly _ (by rw [State.report_cycles]; exact hcycles)⟩
  · rw [State.bAppeared_other (s := u) hring hans] at hexec
    exact ⟨_, hexec, State.askPort_arbiterOnly u hcycles⟩

end Sys2Proof.Machine
end

section
/-!
PROOF. The timers of a record (O53) and the answer of a coin record (O52).
-/

namespace Sys2Proof.Machine

set_option Elab.async false

/-! ## The timers of a record (R42, R46, R50) -/

theorem State.settleExpired_eq {s : State} {x : Circuit} {n : Nat} (hs : (s.record x).state = .ringing)
    (hsettle : (s.record x).settle = some n) :
    s.settleExpired x =
      if (s.points[fPoint x]).present = false then (s.setRecord x { s.record x with settle := none }).enterClearing x .callerClear
      else if (s.points[bPoint x]).present = true then (s.setRecord x { s.record x with settle := none }).answer x
      else s.setRecord x { s.record x with settle := none } := by
  have hf : (s.modifyRecord x fun r => { r with settle := none }).fPresent x = (s.points[fPoint x]).present := rfl
  have hb : (s.modifyRecord x fun r => { r with settle := none }).bPresent x = (s.points[bPoint x]).present := rfl
  rw [State.settleExpired, if_pos ⟨hs, by rw [hsettle]; rfl⟩]
  simp only [hf, hb, Bool.not_eq_true']
  rfl

/-- Clearing a record stops its settle timer, so it may as well have been stopped before (R36). -/
theorem State.clearedTo_settle (s : State) (x : Circuit) (c : ClearCause) (xp : Crosspoint) :
    (s.setRecord x { s.record x with settle := none }).clearedTo x c xp = s.clearedTo x c xp := by
  unfold State.clearedTo
  rw [State.record_setRecord_same]
  simp only [State.setRecord, Vector.set_set]

theorem State.setPoint_self {s : State} {p : Point} {st : PointState} (h : s.points[p] = st) : s.setPoint p st = s := by
  subst h
  simp [State.setPoint]

/-- Settles O53: the event of each expiry, by what the record and its points show. -/
theorem recordTimersExpire : Obligations.RecordTimersExpire := by
  unfold Obligations.RecordTimersExpire
  refine ⟨fun s x n hp hcycles hs hsettle => ?_, fun s x xp hp hcycles hs hmade => ⟨fun hgrace => ?_, fun hcc => ?_⟩,
    fun s x n hp hs hguard => ?_⟩
  · intro u
    have hexec : exec (.settleExpiry x) s = .next (s.settleExpired x).askPort :=
      running_next (fun s => (s.settleExpired x).askPort) hp
    rw [State.settleExpired_eq hs hsettle] at hexec
    have hu : u.record x = { s.record x with settle := none } := s.record_set_same x _
    refine ⟨fun xp hf hmade => ?_, fun hf hb => ?_, fun hf hb => ?_⟩
    · rw [if_pos hf] at hexec
      have hcleared := (State.enterClearing_arbiter .callerClear (w := u) hcycles hu).1 xp hmade
      refine ⟨_, hexec, ?_⟩
      rw [← s.clearedTo_settle]
      exact hcleared
    · have hpresent : (s.points[bPoint x]).present = true := by rw [hb]
      rw [if_neg (by rw [hf]; exact Bool.noConfusion), if_pos hpresent] at hexec
      have hanswers : u.bAppeared x = u.answer x := State.bAppeared_answers (by rw [hu]; exact hs) (by rw [hu])
      have hself : u.setPoint (bPoint x) { present := true, count := none } = u := State.setPoint_self hb
      have hexec' := exec_bAppears (s := u) x hp
      rw [hself, hanswers] at hexec'
      refine ⟨_, hexec, hexec', fun hx hinitial => ?_⟩
      have hpulses : (u.tariffEntry (u.record x).distBand u.band).initial = 0 := by
        rw [hu]
        exact hinitial
      have hanswer := State.answer_metered (s := u) hx
      rw [hpulses, hu] at hanswer
      show (u.answer x).askPort.record x = _
      rw [State.offPort_record (State.offPort_askPort _), hanswer]
      refine (State.record_report _ _ x).trans ?_
      exact State.record_setRecord_same _ x _
    · rw [if_neg (by rw [hf]; exact Bool.noConfusion), if_neg (by rw [hb]; exact Bool.noConfusion)] at hexec
      exact ⟨_, hexec, State.askPort_arbiterOnly u hcycles⟩
  · have hexec : exec (.graceExpiry x) s = .next (s.enterClearing x .credit).askPort :=
      (running_next (fun s => (s.graceExpired x).askPort) hp).trans
        (congrArg (fun v => Host.Outcome.next (State.askPort v)) (if_pos ⟨hs, Option.isSome_iff_ne_none.mpr hgrace⟩))
    exact ⟨_, hexec, (State.enterClearing_arbiter .credit hcycles rfl).1 xp hmade⟩
  · have hexec : exec (.calledClearExpiry x) s = .next (s.enterClearing x .calledClear).askPort :=
      (running_next (fun s => (s.calledClearExpired x).askPort) hp).trans
        (congrArg (fun v => Host.Outcome.next (State.askPort v)) (if_pos ⟨hs, Option.isSome_iff_ne_none.mpr hcc⟩))
    exact ⟨_, hexec, (State.enterClearing_arbiter .calledClear hcycles rfl).1 xp hmade⟩
  · have hexec : exec (.guardExpiry x) s = .next (s.guardExpired x) := running_next (fun s => s.guardExpired x) hp
    have hexpired : s.guardExpired x =
        if circuitKind x = .incoming ∧ (s.enterFree x).fPresent x = true then (s.enterFree x).seize x else s.enterFree x :=
      if_pos ⟨hs, by rw [hguard]; rfl⟩
    have hseized : (s.enterFree x).seize x = (s.setRecord x (CallRecord.blank .seized)).report (.seize x) := by
      simp only [State.seize, State.enterFree, State.modifyRecord, State.record_setRecord_same, State.setRecord_twice]
      rfl
    rw [hexec, hexpired, hseized]
    exact congrArg _ (if_congr (and_congr_left' (circuitKind_incoming_iff x)) rfl rfl)

/-! ## The answer of a coin record (R91, R112 to R114, R120) -/

theorem State.pulses_add (x : Circuit) : ∀ (m n : Nat) (s : State), s.pulses x (m + n) = (s.pulses x m).pulses x n
  | 0, n, s => by rw [Nat.zero_add]; rfl
  | m + 1, n, s => by
    rw [Nat.add_right_comm]
    exact State.pulses_add x m n (s.pulse x)

/-- `s` with `k` pulses of record `x` paid from its credit, and charged to line `l` (R112). -/
def State.paidFrom (s : State) (x : Circuit) (l : Line) (k : Nat) : State :=
  (s.setRecord x { s.record x with credit := (s.record x).credit - k, paid := (s.record x).paid + k }).setLine l
    { s.line l with pulses := (s.line l).pulses + k }

/-- `s` with PAY TONE issued and reported for circuit `x` (R69, R114). -/
def State.toned (s : State) (x : Circuit) (owed : Nat) : State :=
  { s with
    txQueue := if .payTone x ∈ s.txQueue then s.txQueue else s.txQueue ++ [.payTone x],
    reports := s.reports ++ [.payTone x owed] }

theorem State.startGrace_room {s : State} {x : Circuit} (hroom : s.reports.length < 32) :
    s.startGrace x =
      (s.setRecord x { s.record x with grace := some 100, payToneSent := true }).toned x (s.record x).owed := by
  have htone : ∀ u : State, u.issuePayTone x =
      { u with txQueue := if .payTone x ∈ u.txQueue then u.txQueue else u.txQueue ++ [.payTone x] } := fun u => by
    simp only [State.issuePayTone, List.contains_iff_mem]
    split <;> rfl
  simp only [State.startGrace, State.modifyRecord, htone]
  refine (State.report_room _ _ (by exact hroom)).trans ?_
  by_cases hmem : .payTone x ∈ s.txQueue <;> simp [State.setRecord, State.record, State.toned, Config.graceTicks, hmem]

section CoinPulses

variable {x : Circuit} {l : Line}

theorem State.paidFrom_zero (s : State) (x : Circuit) (l : Line) : s.paidFrom x l 0 = s := by
  show (s.setRecord x (s.record x)).setLine l (s.line l) = s
  rw [State.setRecord_self s x _ rfl, State.setLine_self s l _ rfl]

theorem State.paidFrom_record (s : State) (x : Circuit) (l : Line) (k : Nat) :
    (s.paidFrom x l k).record x =
      { s.record x with credit := (s.record x).credit - k, paid := (s.record x).paid + k } := s.record_setRecord_same x _

theorem State.paidFrom_line (s : State) (x : Circuit) (l : Line) (k : Nat) :
    (s.paidFrom x l k).line l = { s.line l with pulses := (s.line l).pulses + k } := State.line_setLine_same _ l _

theorem State.paidFrom_add (s : State) (x : Circuit) (l : Line) (m n : Nat) :
    (s.paidFrom x l m).paidFrom x l n = s.paidFrom x l (m + n) := by
  rw [State.paidFrom, State.paidFrom_record, State.paidFrom_line]
  simp only [State.paidFrom, State.setRecord, State.setLine, Vector.set_set, Nat.sub_sub, Nat.add_assoc]

/-- A pulse that the credit pays (R112). -/
theorem State.pulse_paid {s : State} (hcoin : (s.record x).coin = true) (hl : (s.record x).calling = some l)
    (hcredit : 1 ≤ (s.record x).credit) (hpaid : (s.record x).paid + 1 ≤ 65535) (hroom : (s.line l).pulses + 1 ≤ 65535) :
    s.pulse x = if (s.record x).credit = 1 then (s.paidFrom x l 1).startGrace x else s.paidFrom x l 1 := by
  have hsucc : saturatingSucc (s.record x).paid Config.countMax = (s.record x).paid + 1 := if_pos hpaid
  have hcharged : (s.modifyRecord x fun r =>
      { r with credit := r.credit - 1, paid := saturatingSucc r.paid Config.countMax }).chargeCaller x = s.paidFrom x l 1 := by
    rw [State.chargeCaller_line (by rw [State.modifyRecord, State.record_setRecord_same]; exact hl),
      State.chargeLine_room _ l (by exact hroom)]
    simp only [State.modifyRecord, hsucc]
    rfl
  rw [State.pulse, if_pos hcoin, if_neg (by omega)]
  simp only [State.paidPulse, hcharged, State.paidFrom_record]
  exact if_congr (by omega) rfl rfl

/-- A pulse that is owed (R113). -/
theorem State.pulse_owes {s : State} (hcoin : (s.record x).coin = true) (hcredit : (s.record x).credit = 0)
    (howed : (s.record x).owed + 1 ≤ 127) :
    s.pulse x =
      if (s.record x).grace.isSome then s.setRecord x { s.record x with owed := (s.record x).owed + 1 }
      else (s.setRecord x { s.record x with owed := (s.record x).owed + 1 }).startGrace x := by
  have hsucc : saturatingSucc (s.record x).owed Config.owedMax = (s.record x).owed + 1 := if_pos howed
  rw [State.pulse, if_pos hcoin, if_pos hcredit]
  simp only [State.owedPulse, State.modifyRecord, hsucc, State.record_setRecord_same]

/-- The pulses that the credit pays and outlasts (R112). -/
theorem State.pulses_paid : ∀ (k : Nat) (s : State), (s.record x).coin = true → (s.record x).calling = some l →
    k < (s.record x).credit ∨ k = 0 → (s.record x).paid + k ≤ 65535 → (s.line l).pulses + k ≤ 65535 →
    s.pulses x k = s.paidFrom x l k
  | 0, s, _, _, _, _, _ => (s.paidFrom_zero x l).symm
  | k + 1, s, hcoin, hl, hcredit, hpaid, hroom => by
    have hlt : k + 1 < (s.record x).credit := hcredit.resolve_right (Nat.succ_ne_zero k)
    have hone : s.pulse x = s.paidFrom x l 1 := by
      rw [State.pulse_paid hcoin hl (by omega) (by omega) (by omega), if_neg (by omega)]
    have hrecord := s.paidFrom_record x l 1
    show (s.pulse x).pulses x k = _
    rw [hone, State.pulses_paid k (s.paidFrom x l 1) (by rw [hrecord]; exact hcoin) (by rw [hrecord]; exact hl)
      (.inl (by rw [hrecord]; exact Nat.lt_sub_of_add_lt hlt)) (by rw [hrecord]; exact (Nat.add_right_comm _ 1 k).trans_le hpaid)
      (by rw [State.paidFrom_line]; exact (Nat.add_right_comm _ 1 k).trans_le hroom), State.paidFrom_add, Nat.add_comm]

/-- The pulses that a record in its grace owes (R113). -/
theorem State.pulses_owed : ∀ (k : Nat) (s : State), (s.record x).coin = true → (s.record x).credit = 0 →
    (s.record x).grace.isSome = true → (s.record x).owed + k ≤ 127 →
    s.pulses x k = s.setRecord x { s.record x with owed := (s.record x).owed + k }
  | 0, s, _, _, _, _ => (s.setRecord_self x _ rfl).symm
  | k + 1, s, hcoin, hcredit, hgrace, howed => by
    have hone : s.pulse x = s.setRecord x { s.record x with owed := (s.record x).owed + 1 } := by
      rw [State.pulse_owes hcoin hcredit (by omega), if_pos hgrace]
    show (s.pulse x).pulses x k = _
    rw [hone, State.pulses_owed k (s.setRecord x { s.record x with owed := (s.record x).owed + 1 })
      (by rw [State.record_setRecord_same]; exact hcoin) (by rw [State.record_setRecord_same]; exact hcredit)
      (by rw [State.record_setRecord_same]; exact hgrace)
      (by rw [State.record_setRecord_same]; exact (Nat.add_right_comm _ 1 k).trans_le howed), State.record_setRecord_same,
      State.setRecord_twice, Nat.add_assoc, Nat.add_comm 1 k]

/-- The pulses still owed after the one that started grace (R113, R114). -/
theorem State.pulses_afterTone {s : State} (k n : Nat) (hcoin : (s.record x).coin = true) (hcredit : (s.record x).credit = 0)
    (howed : (s.record x).owed + k ≤ 127) :
    ((s.setRecord x { s.record x with grace := some 100, payToneSent := true }).toned x n).pulses x k =
      (s.setRecord x { s.record x with grace := some 100, payToneSent := true, owed := (s.record x).owed + k }).toned x n := by
  let v : State := (s.setRecord x { s.record x with grace := some 100, payToneSent := true }).toned x n
  have hrecord : v.record x = { s.record x with grace := some 100, payToneSent := true } := s.record_setRecord_same x _
  rw [State.pulses_owed k v (by rw [hrecord]; exact hcoin) (by rw [hrecord]; exact hcredit) (by rw [hrecord]; rfl)
    (by rw [hrecord]; exact howed), hrecord]
  exact congrArg (fun w : State => w.toned x n) (s.setRecord_twice x _ _)

variable {s : State} {i : Nat}

/-- Pulses that find no credit: the first starts grace, and all are owed (R113, R114). -/
theorem State.pulses_noCredit (hcoin : (s.record x).coin = true) (hcredit : (s.record x).credit = 0) (hgrace : (s.record x).grace = none)
    (hi : 0 < i) (howed : (s.record x).owed + i ≤ 127) (hroom : s.reports.length < 32) :
    s.pulses x i =
      (s.setRecord x { s.record x with grace := some 100, payToneSent := true, owed := (s.record x).owed + i }).toned x
        ((s.record x).owed + 1) := by
  obtain ⟨k, rfl⟩ : ∃ k, i = k + 1 := ⟨i - 1, by omega⟩
  let v : State := s.setRecord x { s.record x with owed := (s.record x).owed + 1 }
  have hrecord : v.record x = { s.record x with owed := (s.record x).owed + 1 } := s.record_setRecord_same x _
  have hpulse : s.pulse x = v.startGrace x := by
    rw [State.pulse_owes hcoin hcredit (by omega), if_neg (by rw [hgrace]; exact Bool.false_ne_true)]
  have hrest := State.pulses_afterTone (x := x) (s := v) k ((s.record x).owed + 1) (by rw [hrecord]; exact hcoin)
    (by rw [hrecord]; exact hcredit) (by rw [hrecord]; exact (Nat.add_right_comm _ 1 k).trans_le howed)
  rw [hrecord] at hrest
  show (s.pulse x).pulses x k = _
  rw [hpulse, State.startGrace_room (s := v) hroom, hrecord, hrest, State.setRecord_twice, Nat.add_assoc, Nat.add_comm 1 k]

/-- Pulses that exhaust a credit: grace starts with the one that takes its last, and the rest are owed (R112 to R114). -/
theorem State.pulses_exhausting (hcoin : (s.record x).coin = true) (hl : (s.record x).calling = some l)
    (hcredit : 0 < (s.record x).credit) (hle : (s.record x).credit ≤ i) (howed : (s.record x).owed + i ≤ 127)
    (hpaid : (s.record x).paid + i ≤ 65535) (hline : (s.line l).pulses + i ≤ 65535) (hroom : s.reports.length < 32) :
    s.pulses x i =
      ((s.paidFrom x l (s.record x).credit).setRecord x
        { (s.paidFrom x l (s.record x).credit).record x with
          grace := some 100, payToneSent := true, owed := (s.record x).owed + (i - (s.record x).credit) }).toned x
        (s.record x).owed := by
  generalize hc : (s.record x).credit = c at *
  obtain ⟨k, rfl⟩ : ∃ k, i = (c - 1) + (k + 1) := ⟨i - c, by omega⟩
  have hfirst := State.pulses_paid (x := x) (l := l) (c - 1) s hcoin hl (by omega) (by omega) (by omega)
  have hrecord := s.paidFrom_record x l (c - 1)
  have hlast : (s.paidFrom x l (c - 1)).pulse x = (s.paidFrom x l c).startGrace x := by
    rw [State.pulse_paid (x := x) (l := l) (by rw [hrecord]; exact hcoin) (by rw [hrecord]; exact hl)
      (by rw [hrecord]; simp only; omega) (by rw [hrecord]; simp only; omega) (by rw [State.paidFrom_line]; simp only; omega),
      if_pos (by rw [hrecord]; simp only; omega), State.paidFrom_add, Nat.sub_add_cancel hcredit]
  have hpaidRecord := s.paidFrom_record x l c
  rw [State.pulses_add, hfirst]
  show ((s.paidFrom x l (c - 1)).pulse x).pulses x k = _
  rw [hlast, State.startGrace_room (s := s.paidFrom x l c) hroom,
    State.pulses_afterTone (x := x) (s := s.paidFrom x l c) k _ (by rw [hpaidRecord]; exact hcoin)
      (by rw [hpaidRecord]; simp only; omega) (by rw [hpaidRecord]; simp only; omega), hpaidRecord]
  have hk : c - 1 + (k + 1) - c = k := by omega
  rw [hk]

end CoinPulses

/-- The arbiter's choice after an event that is known to leave `s`. -/
theorem State.arbiterOnly_askPort_of_eq {s t : State} (h : t = s) (hcycles : s.cycles = []) : State.ArbiterOnly s t.askPort :=
  h ▸ State.askPort_arbiterOnly t (h ▸ hcycles)

/-- Settles O52: the initial pulses are drawn from the credit while it lasts, and owed after it. -/
theorem coinAnswerDrawsCredit : Obligations.CoinAnswerDrawsCredit := by
  unfold Obligations.CoinAnswerDrawsCredit
  intro s x l hp hcycles hs hsettle hx hcoin howed hgrace hl hroom r i drawn short hi hpaid hline
  let u : State := { s with points := s.points.set (2 * x.val + 1) { present := true, count := none } (by omega) }
  have hexec : exec (.bAppears x) s = .next (u.bAppeared x).askPort := exec_bAppears x hp
  let v : State := (u.setRecord x (u.answeredRecord r)).report (.answer x s.band)
  have hv : v = { u.setRecord x (u.answeredRecord r) with reports := s.reports ++ [.answer x s.band] } :=
    State.report_room _ _ (by exact Nat.lt_of_succ_lt hroom)
  have hrecord : v.record x = u.answeredRecord r := by
    rw [hv]
    exact u.record_setRecord_same x _
  have hvline : v.line l = s.line l := by
    rw [hv]
    rfl
  have hvroom : v.reports.length < 32 := by
    rw [hv]
    simp only [List.length_append, List.length_singleton]
    omega
  have hanswer : u.bAppeared x = v.pulses x i :=
    (State.bAppeared_answers (s := u) hs hsettle).trans (State.answer_metered hx)
  rw [hanswer] at hexec
  have hr : s.record x = r := rfl
  rw [hr] at hcoin howed hgrace hl
  have hvcoin : (v.record x).coin = true := by rw [hrecord]; exact hcoin
  have hvcalling : (v.record x).calling = some l := by rw [hrecord]; exact hl
  have hvcredit : (v.record x).credit = r.credit := by rw [hrecord]; rfl
  have hvowed : (v.record x).owed = 0 := by rw [hrecord]; exact howed
  have hvpaid : (v.record x).paid + i ≤ 65535 := by rw [hrecord]; exact hpaid
  have hvpulses : (v.line l).pulses + i ≤ 65535 := by rw [hvline]; exact hline
  refine ⟨_, hexec, State.arbiterOnly_askPort_of_eq ?_ hcycles⟩
  by_cases hshort : short
  · by_cases hcredit : r.credit = 0
    · have hdrawn : drawn = 0 := by simp only [drawn, hcredit, Nat.zero_min]
      have hsame : s.lines.set l.val { s.line l with pulses := (s.line l).pulses } l.isLt = s.lines :=
        congrArg State.lines (s.setLine_self l _ rfl)
      rw [State.pulses_noCredit hvcoin (hvcredit.trans hcredit) (by rw [hrecord]; exact hgrace) hshort.1 (by omega) hvroom, hvowed,
        hrecord, hv]
      simp [hdrawn, hshort, hcredit, State.toned, State.setRecord, State.answeredRecord, u, hsame, howed, hgrace]
    · have hdrawn : drawn = r.credit := Nat.min_eq_left hshort.2
      rw [State.pulses_exhausting hvcoin hvcalling (by omega) (by rw [hvcredit]; exact hshort.2) (by omega) hvpaid hvpulses hvroom,
        hvowed, State.paidFrom_record, State.paidFrom, hvcredit, hvline, hrecord, hv]
      simp [hdrawn, hshort, hcredit, State.toned, State.setRecord, State.setLine, State.answeredRecord, u, howed, hgrace]
  · have hdrawn : drawn = i := Nat.min_eq_right (by by_contra h; exact hshort ⟨by omega, by omega⟩)
    rw [State.pulses_paid i v hvcoin hvcalling (by rw [hvcredit]; by_contra h; exact hshort ⟨by omega, by omega⟩) hvpaid hvpulses,
      State.paidFrom, hvline, hrecord, hv]
    simp [hdrawn, hshort, State.setRecord, State.setLine, State.answeredRecord, u, howed, hgrace]

end Sys2Proof.Machine
end

section
/-!
PROOF. The scan (O49).
-/

namespace Sys2Proof.Machine

set_option Elab.async false

/-! ## The work at a record does not see the points -/

/-- `s` with other supervision points. -/
def State.withPoints (s : State) (ps : Vector PointState 112) : State := { s with points := ps }

section WithPoints

variable {s s' : State} {ps : Vector PointState 112}

theorem State.report_withPoints (h : s' = s.withPoints ps) (e : Report) : s'.report e = (s.report e).withPoints ps := by
  subst h
  simp only [State.report_eq]
  rfl

theorem State.ite_withPoints {c : Prop} [Decidable c] {a b a' b' : State} (ha : a' = a.withPoints ps) (hb : b' = b.withPoints ps) :
    (if c then a' else b') = (if c then a else b).withPoints ps := by
  rw [ha, hb, apply_ite (fun t => State.withPoints t ps)]

theorem State.setBusy_withPoints (h : s' = s.withPoints ps) (o : Option Line) (b : Option Circuit) :
    s'.setBusy o b = (s.setBusy o b).withPoints ps := by
  subst h
  cases o <;> rfl

variable (x : Circuit)

theorem State.freeLines_withPoints (h : s' = s.withPoints ps) : s'.freeLines x = (s.freeLines x).withPoints ps := by
  subst h
  exact State.setBusy_withPoints (State.setBusy_withPoints (by rfl) _ _) _ _

theorem State.offerTicket_withPoints (h : s' = s.withPoints ps) (b : TicketBody) :
    s'.offerTicket x b = (s.offerTicket x b).withPoints ps := by
  subst h
  exact State.ite_withPoints rfl rfl

theorem State.breakComplete_withPoints (h : s' = s.withPoints ps) : s'.breakComplete x = (s.breakComplete x).withPoints ps := by
  have hfreed : (s'.releaseRequest x).freeLines x = ((s.releaseRequest x).freeLines x).withPoints ps :=
    State.freeLines_withPoints x (by rw [h]; rfl)
  have hrecord : s'.record x = s.record x := by rw [h]; rfl
  simp only [State.breakComplete, hfreed, hrecord]
  exact State.ite_withPoints (State.offerTicket_withPoints x (by rfl) _) rfl

theorem State.enterClearing_withPoints (h : s' = s.withPoints ps) (c : ClearCause) :
    s'.enterClearing x c = (s.enterClearing x c).withPoints ps := by
  have hmarked : s'.markClearing x c = (s.markClearing x c).withPoints ps := State.report_withPoints (by rw [h]; rfl) _
  have hrecord : ((s.markClearing x c).withPoints ps).record x = (s.markClearing x c).record x := rfl
  unfold State.enterClearing
  rw [hmarked]
  unfold State.breakNext
  rw [hrecord]
  split
  · rfl
  · exact State.breakComplete_withPoints x (by rfl)

theorem State.chargeLine_withPoints (h : s' = s.withPoints ps) (l : Line) : s'.chargeLine l = (s.chargeLine l).withPoints ps := by
  subst h
  exact State.ite_withPoints rfl (State.ite_withPoints rfl (State.report_withPoints (by rfl) _))

theorem State.chargeCaller_withPoints (h : s' = s.withPoints ps) : s'.chargeCaller x = (s.chargeCaller x).withPoints ps := by
  have hrecord : s'.record x = s.record x := by rw [h]; rfl
  unfold State.chargeCaller
  rw [hrecord]
  split
  · exact State.chargeLine_withPoints h _
  · exact h

theorem State.issuePayTone_withPoints (h : s' = s.withPoints ps) : s'.issuePayTone x = (s.issuePayTone x).withPoints ps := by
  subst h
  exact State.ite_withPoints rfl rfl

theorem State.startGrace_withPoints (h : s' = s.withPoints ps) : s'.startGrace x = (s.startGrace x).withPoints ps := by
  have htoned : (s'.modifyRecord x fun r => { r with grace := some Config.graceTicks }).issuePayTone x =
      ((s.modifyRecord x fun r => { r with grace := some Config.graceTicks }).issuePayTone x).withPoints ps :=
    State.issuePayTone_withPoints x (by rw [h]; rfl)
  simp only [State.startGrace, htoned]
  exact State.report_withPoints (by rfl) _

theorem State.pulse_withPoints (h : s' = s.withPoints ps) : s'.pulse x = (s.pulse x).withPoints ps := by
  have hcharge : ∀ f, (s'.modifyRecord x f).chargeCaller x = ((s.modifyRecord x f).chargeCaller x).withPoints ps :=
    fun f => State.chargeCaller_withPoints x (by rw [h]; rfl)
  have hpaid : s'.paidPulse x = (s.paidPulse x).withPoints ps := by
    simp only [State.paidPulse, hcharge]
    exact State.ite_withPoints (State.startGrace_withPoints x (by rfl)) rfl
  have howed : s'.owedPulse x = (s.owedPulse x).withPoints ps := by
    subst h
    exact State.ite_withPoints rfl (State.startGrace_withPoints x (by rfl))
  have hordinary : s'.ordinaryPulse x = (s.ordinaryPulse x).withPoints ps := hcharge _
  subst h
  exact State.ite_withPoints (State.ite_withPoints howed hpaid) hordinary

theorem State.pulses_withPoints : ∀ (n : Nat) {s s' : State}, s' = s.withPoints ps → s'.pulses x n = (s.pulses x n).withPoints ps
  | 0, _, _, h => h
  | n + 1, _, _, h => State.pulses_withPoints n (State.pulse_withPoints x h)

theorem State.answer_withPoints (h : s' = s.withPoints ps) : s'.answer x = (s.answer x).withPoints ps := by
  subst h
  exact State.ite_withPoints (State.report_withPoints (by rfl) _) (State.pulses_withPoints x _ (State.report_withPoints (by rfl) _))

end WithPoints

/-! ## The delivery of a change (R40) -/

/-- A change of point `p`, whose filtered state has been set, delivered to its record (R40). -/
def State.delivered (s : State) (p : Point) (present : Bool) : State :=
  if p.val % 2 = 0 then (if present then s.fAppeared (pointCircuit p) else s.fDisappeared (pointCircuit p))
  else if present then s.bAppeared (pointCircuit p) else s.bDisappeared (pointCircuit p)

theorem State.recognise_eq (s : State) (p : Point) (present : Bool) :
    s.recognise p present = (s.setPoint p { present := present, count := none }).delivered p present := by
  have hparity : (p.val % 2 == 0) = decide (p.val % 2 = 0) := rfl
  by_cases hp : p.val % 2 = 0
  · simp only [State.recognise, State.delivered, hparity, if_pos hp, decide_eq_true hp]
    cases present <;> rfl
  · simp only [State.recognise, State.delivered, hparity, if_neg hp, decide_eq_false hp]
    cases present <;> rfl

theorem State.delivered_withPoints (s : State) (ps : Vector PointState 112) (p : Point) (present : Bool) :
    (s.withPoints ps).delivered p present = (s.delivered p present).withPoints ps := by
  have hrecord : (s.withPoints ps).record (pointCircuit p) = s.record (pointCircuit p) := rfl
  refine State.ite_withPoints (State.ite_withPoints ?_ ?_) (State.ite_withPoints ?_ ?_)
  · exact State.ite_withPoints (State.report_withPoints (by rfl) _) rfl
  · unfold State.fDisappeared
    rw [hrecord]
    cases (s.record (pointCircuit p)).state with
    | seized => exact State.report_withPoints (by rfl) _
    | ringing => exact State.ite_withPoints rfl (State.enterClearing_withPoints _ (by rfl) _)
    | answered => exact State.enterClearing_withPoints _ (by rfl) _
    | _ => rfl
  · unfold State.bAppeared
    rw [hrecord]
    cases (s.record (pointCircuit p)).state with
    | ringing => exact State.ite_withPoints rfl (State.answer_withPoints _ (by rfl))
    | answered => exact State.ite_withPoints (State.report_withPoints (by rfl) _) rfl
    | _ => rfl
  · exact State.ite_withPoints (State.report_withPoints (by rfl) _) rfl

theorem State.WorkAt.pulses {x : Circuit} : ∀ (n : Nat) (s : State), s.RecordsOnly (s.pulses x n)
  | 0, _ => rfl
  | n + 1, _ => State.WorkAt.pulse.rest.trans (State.WorkAt.pulses n _)

theorem State.RecordsOnly.ite {c : Prop} [Decidable c] {s a b : State} (ha : s.RecordsOnly a) (hb : s.RecordsOnly b) :
    s.RecordsOnly (if c then a else b) := by
  split
  · exact ha
  · exact hb

theorem State.RecordsOnly.changed (s : State) (x : Circuit) (r : CallRecord) (e : Report) : s.RecordsOnly ((s.setRecord x r).report e) :=
  ((State.WorkAt.setRecord (x := x) (c := none) r).trans (.report e)).rest

theorem State.RecordsOnly.enterClearing (s : State) (x : Circuit) (c : ClearCause) : s.RecordsOnly (s.enterClearing x c) :=
  (State.WorkAt.enterClearing (x := x) (c := none) c).rest

theorem State.RecordsOnly.answer (s : State) (x : Circuit) : s.RecordsOnly (s.answer x) :=
  .ite (.changed s x _ _) ((State.RecordsOnly.changed s x _ _).trans (State.WorkAt.pulses _ _))

/-- A delivery is work at a record alone. -/
theorem State.RecordsOnly.delivered (s : State) (p : Point) (present : Bool) : s.RecordsOnly (s.delivered p present) := by
  refine .ite (.ite (.ite (.changed s _ _ _) rfl) ?_) (.ite ?_ (.ite (.changed s _ _ _) rfl))
  · unfold State.fDisappeared
    cases (s.record (pointCircuit p)).state with
    | seized => exact .changed s _ _ _
    | ringing => exact .ite rfl (.enterClearing s _ _)
    | answered => exact .enterClearing s _ _
    | _ => rfl
  · unfold State.bAppeared
    cases (s.record (pointCircuit p)).state with
    | ringing => exact .ite rfl (.answer s _)
    | answered => exact .ite (.changed s _ _ _) rfl
    | _ => rfl

/-! ## The scan of a list of points (R38, R39) -/

/-- The state of a point after a scan that finds the level `now` (R39). -/
def nextPoint (st : PointState) (now : Bool) : PointState :=
  if now = st.present then { present := now, count := none }
  else if persistence now ≤ nextCount st.count then { present := now, count := none }
  else { present := st.present, count := some (nextCount st.count) }

theorem nextPoint_same {st : PointState} {now : Bool} (h : now = st.present) : nextPoint st now = { st with count := none } := by
  rw [nextPoint, if_pos h, h]

theorem nextPoint_changed {st : PointState} {now : Bool} (h : (nextPoint st now).present ≠ st.present) :
    nextPoint st now = { present := now, count := none } := by
  unfold nextPoint at h ⊢
  split_ifs at h ⊢ with hsame hdue
  · rfl
  · rfl
  · exact absurd rfl h

/-- One point at a scan: its state is set, and a recognised change is delivered (R39, R40). -/
theorem State.scanPoint_eq (s : State) (raw : BitVec 112) (p : Point) :
    s.scanPoint raw p =
      if (nextPoint s.points[p] (raw.getLsbD p.val)).present = s.points[p].present then
        s.setPoint p (nextPoint s.points[p] (raw.getLsbD p.val))
      else (s.setPoint p (nextPoint s.points[p] (raw.getLsbD p.val))).delivered p (raw.getLsbD p.val) := by
  simp only [State.scanPoint, State.recognise_eq]
  by_cases hsame : raw.getLsbD p.val = s.points[p].present
  · simp only [if_pos hsame, nextPoint_same hsame, if_true]
  · by_cases hdue : persistence (raw.getLsbD p.val) ≤ nextCount s.points[p].count
    · simp only [nextPoint, if_neg hsame, if_pos hdue]
    · simp only [nextPoint, if_neg hsame, if_neg hdue, if_true]

/-- `b` is `a` after the points of `ps` have been scanned at the levels `raw`. -/
structure State.ScannedTo (raw : BitVec 112) (ps : List Point) (a b : State) : Prop where
  points : ∀ p : Point, b.points[p] = if p ∈ ps then nextPoint a.points[p] (raw.getLsbD p.val) else a.points[p]
  rest : (a.withPoints b.points).RecordsOnly b
  quiet : (∀ p ∈ ps, (nextPoint a.points[p] (raw.getLsbD p.val)).present = a.points[p].present) → b = a.withPoints b.points
  single : ∀ q ∈ ps, (nextPoint a.points[q] (raw.getLsbD q.val)).present ≠ a.points[q].present →
    (∀ p ∈ ps, p ≠ q → (nextPoint a.points[p] (raw.getLsbD p.val)).present = a.points[p].present) →
    b = (a.withPoints b.points).delivered q (raw.getLsbD q.val)

theorem State.setPoint_points (s : State) (p q : Point) (st : PointState) :
    (s.setPoint p st).points[q] = if q = p then st else s.points[q] := by
  by_cases h : q = p
  · subst h
    simp [State.setPoint]
  · have h' : p.val ≠ q.val := fun e => h (Fin.ext e.symm)
    simp [State.setPoint, Vector.getElem_set_ne, h, h']

theorem State.RecordsOnly.points {s t : State} (h : s.RecordsOnly t) : t.points = s.points := by rw [h]

theorem State.RecordsOnly.withPoints {s t : State} (h : s.RecordsOnly t) (ps : Vector PointState 112) :
    (s.withPoints ps).RecordsOnly (t.withPoints ps) := by
  unfold State.RecordsOnly at *
  rw [h]
  rfl

/-- One point's scan, as that of a list of one. -/
theorem State.scanPoint_scanned (s : State) (raw : BitVec 112) (p : Point) : State.ScannedTo raw [p] s (s.scanPoint raw p) := by
  rw [State.scanPoint_eq]
  generalize hst : nextPoint s.points[p] (raw.getLsbD p.val) = st
  have hpoint : ∀ q : Point, (s.setPoint p st).points[q] =
      if q ∈ [p] then nextPoint s.points[q] (raw.getLsbD q.val) else s.points[q] := fun q => by
    rw [State.setPoint_points]
    by_cases h : q = p
    · rw [if_pos h, if_pos (List.mem_singleton.mpr h), h, hst]
    · rw [if_neg h, if_neg (fun hmem => h (List.mem_singleton.mp hmem))]
  split
  next hsame =>
    refine ⟨hpoint, rfl, fun _ => rfl, fun q hq hchanged _ => ?_⟩
    rw [List.mem_singleton.mp hq, hst] at hchanged
    exact absurd hsame hchanged
  next hchanged =>
    have hrest := State.RecordsOnly.delivered (s.setPoint p st) p (raw.getLsbD p.val)
    refine ⟨fun q => ?_, ?_, fun hquiet => ?_, fun q hq _ _ => ?_⟩
    · rw [hrest.points]
      exact hpoint q
    · rw [hrest.points]
      exact hrest
    · exact absurd (hst ▸ hquiet p List.mem_cons_self) hchanged
    · rw [List.mem_singleton.mp hq, hrest.points]
      rfl

theorem State.scannedTo_fold (raw : BitVec 112) : ∀ (ps : List Point) (s : State), ps.Nodup →
    State.ScannedTo raw ps s (ps.foldl (fun s p => s.scanPoint raw p) s)
  | [], s, _ => ⟨fun _ => rfl, rfl, fun _ => rfl, fun _ hq => absurd hq List.not_mem_nil⟩
  | p :: ps, s, hnodup => by
    obtain ⟨hp, hps⟩ := List.nodup_cons.mp hnodup
    have hhead := s.scanPoint_scanned raw p
    have htail := State.scannedTo_fold raw ps (s.scanPoint raw p) hps
    rw [List.foldl_cons]
    generalize s.scanPoint raw p = a at hhead htail
    generalize ps.foldl (fun s p => s.scanPoint raw p) a = b at htail
    have hold : ∀ q ∈ ps, a.points[q] = s.points[q] := fun q hq => by
      rw [hhead.points, if_neg]
      exact fun h => hp (List.mem_singleton.mp h ▸ hq)
    refine ⟨fun q => ?_, ?_, fun hquiet => ?_, fun q hq hchanged hothers => ?_⟩
    · rw [htail.points]
      by_cases hq : q ∈ ps
      · rw [if_pos hq, hold q hq, if_pos (List.mem_cons_of_mem _ hq)]
      · rw [if_neg hq, hhead.points]
        exact if_congr (by simp [hq]) rfl rfl
    · exact State.RecordsOnly.trans (hhead.rest.withPoints b.points) htail.rest
    · have ha := hhead.quiet fun q hq => hquiet q (List.mem_singleton.mp hq ▸ List.mem_cons_self)
      have hb := htail.quiet fun q hq => by
        rw [hold q hq]
        exact hquiet q (List.mem_cons_of_mem _ hq)
      rw [ha] at hb
      exact hb
    · rcases List.mem_cons.mp hq with rfl | hmem
      · have ha := hhead.single q List.mem_cons_self hchanged fun r hr hne => absurd (List.mem_singleton.mp hr) hne
        have hb := htail.quiet fun r hr => by
          rw [hold r hr]
          exact hothers r (List.mem_cons_of_mem _ hr) fun h => hp (h ▸ hr)
        rw [ha, ← State.delivered_withPoints] at hb
        exact hb
      · have hqp : p ≠ q := fun h => hp (h ▸ hmem)
        have ha := hhead.quiet fun r hr => by
          rw [List.mem_singleton.mp hr]
          exact hothers p List.mem_cons_self hqp
        have hb := htail.single q hmem (by rw [hold q hmem]; exact hchanged) fun r hr hne => by
          rw [hold r hr]
          exact hothers r (List.mem_cons_of_mem _ hr) hne
        rw [ha] at hb
        exact hb

/-- The command of a change of a point whose filtered state stands already: it delivers the change (R40). -/
theorem exec_pointChange {s : State} {q : Point} {x : Circuit} {now : Bool} (hp : s.phase ≠ .held) (hcycles : s.cycles = [])
    (hx : x.val = q.val / 2) (hpoint : s.points[q] = { present := now, count := none }) :
    ∃ v, exec
        (if q.val % 2 = 0 then (if now then .fAppears x else .fDisappears x) else if now then .bAppears x else .bDisappears x) s =
          .next v ∧
      State.ArbiterOnly v (s.delivered q now).askPort := by
  have hdelivered : s.recognise q now = s.delivered q now := by rw [State.recognise_eq, State.setPoint_self hpoint]
  have hasked : State.ArbiterOnly (s.delivered q now) (s.delivered q now).askPort :=
    State.askPort_arbiterOnly _ (by rw [State.RecordsOnly.delivered s q now]; exact hcycles)
  by_cases heven : q.val % 2 = 0
  · have hq : fPoint x = q := Fin.ext (show 2 * x.val = q.val by omega)
    rw [if_pos heven]
    cases now with
    | true => exact ⟨_, running_next (fun s => s.recognise (fPoint x) true) hp, by rw [hq, hdelivered]; exact hasked⟩
    | false =>
      exact ⟨_, running_next (fun s => (s.recognise (fPoint x) false).askPort) hp, by rw [hq, hdelivered]; exact State.ArbiterOnly.refl _⟩
  · have hq : bPoint x = q := Fin.ext (show 2 * x.val + 1 = q.val by omega)
    rw [if_neg heven]
    cases now with
    | true =>
      exact ⟨_, running_next (fun s => (s.recognise (bPoint x) true).askPort) hp, by rw [hq, hdelivered]; exact State.ArbiterOnly.refl _⟩
    | false => exact ⟨_, running_next (fun s => s.recognise (bPoint x) false) hp, by rw [hq, hdelivered]; exact hasked⟩

theorem State.offPort_points {s t : State} (h : t.offPort = s.offPort) :
    t.points = s.points ∧ t.scanPins = s.scanPins ∧ t.scanDivider = s.scanDivider := by
  have hpart {α : Type} (f : State → α) : f t.offPort = f s.offPort := congrArg f h
  exact ⟨hpart State.points, hpart State.scanPins, hpart State.scanDivider⟩

/-- Settles O49: the points one by one, and the delivery of the one change. -/
theorem scanFiltersPoints : Obligations.ScanFiltersPoints := by
  unfold Obligations.ScanFiltersPoints
  intro s raw hp next
  let s0 : State := { s with scanPins := raw, scanDivider := 0 }
  have hscan : State.ScannedTo raw (List.finRange 112) s0 (s.scan raw) := State.scannedTo_fold raw _ s0 (List.nodup_finRange 112)
  have hexec : exec (.scan raw) s = .next (s.scan raw).askPort := running_next (fun s => (s.scan raw).askPort) hp
  generalize s.scan raw = b at hscan hexec
  obtain ⟨hpoints, hpins, hdivider⟩ := State.offPort_points b.offPort_askPort
  have hall : ∀ p : Point, p ∈ List.finRange 112 := List.mem_finRange
  have hnext : ∀ p : Point, b.points[p] = next p := fun p => (hscan.points p).trans (if_pos (hall p))
  have hrest := hscan.rest
  refine ⟨b.askPort, hexec, hpins.trans (by rw [hrest]; rfl), hdivider.trans (by rw [hrest]; rfl), fun p => ?_, fun hcycles hquiet => ?_,
    fun q x hcycles hx hchanged hothers => ?_⟩
  · rw [hpoints]
    exact hnext p
  · have hb := hscan.quiet fun p _ => hquiet p
    rw [hpoints]
    exact State.arbiterOnly_askPort_of_eq hb hcycles
  · have hb := hscan.single q (hall q) hchanged fun p _ hne => hothers p hne
    have hpoint : (s0.withPoints b.points).points[q] = { present := raw.getLsbD q.val, count := none } :=
      (hnext q).trans (nextPoint_changed hchanged)
    obtain ⟨v, hv, harb⟩ := exec_pointChange (s := s0.withPoints b.points) hp hcycles hx hpoint
    rw [← hb] at harb
    rw [hpoints]
    exact ⟨v, hv, harb⟩

end Sys2Proof.Machine
end

section
/-!
PROOF. What an event leaves to the clock: `State.Calm s t` says that from `s` to `t` nothing that a CLK period counts has changed, but
for record timers that were stopped or set afresh. It is shown once for each operation from those it calls, up to the end events of
what owns the port. It is what O3, O9 and O11 need of an end event in which the dispatcher may go on to any order.
-/

namespace Sys2Proof.Machine

set_option Elab.async false

/-- The three timers of a record: settle, called-clear and guard. -/
def CallRecord.timer (r : CallRecord) : Fin 3 → Option Nat
  | 0 => r.settle
  | 1 => r.calledClear
  | 2 => r.guardTimer

theorem CallRecord.timer_ne_zero {r : CallRecord} (hsettle : r.settle ≠ some 0 := by exact nofun)
    (hcalled : r.calledClear ≠ some 0 := by exact nofun) (hguard : r.guardTimer ≠ some 0 := by exact nofun) (i : Fin 3) :
    r.timer i ≠ some 0 := by
  match i with
  | 0 => exact hsettle
  | 1 => exact hcalled
  | 2 => exact hguard

/-- What a CLK period counts or looks at beside the records and the stretch, and the cycles of the processor. -/
def State.timing (s : State) :=
  (s.cycles, s.onWire, s.wireLeft, s.bitClock, s.outstanding, s.scanDivider, s.tickDivider)

/-- From `s` to `t` nothing that a period counts has changed, no order write was stretched, and no record timer ran out. -/
structure State.Calm (s t : State) : Prop where
  timing : t.timing = s.timing := by rfl
  stretch : s.stretch = .none → t.stretch = .none := by exact id
  timers : ∀ y i, (t.record y).timer i = some 0 → (s.record y).timer i = some 0 := by exact fun _ _ => id

namespace State.Calm

variable {s t u : State} {x : Circuit}

theorem refl (s : State) : s.Calm s where

theorem trans (h : s.Calm t) (h' : t.Calm u) : s.Calm u where
  timing := h'.timing.trans h.timing
  stretch hs := h'.stretch (h.stretch hs)
  timers y i hu := h.timers y i (h'.timers y i hu)

/-- A change of other fields. -/
theorem of_kept (h : (t.timing, t.stretch, t.records) = (s.timing, s.stretch, s.records) := by rfl) : s.Calm t := by
  simp only [Prod.mk.injEq] at h
  obtain ⟨htiming, hstretch, hrecords⟩ := h
  exact { timing := htiming, stretch := fun hs => hstretch.trans hs
          timers := fun y i => by rw [State.record, hrecords]; exact id }

theorem ite {p : Prop} [Decidable p] {a b : State} (ha : s.Calm a) (hb : s.Calm b) : s.Calm (if p then a else b) := by
  split
  · exact ha
  · exact hb

/-- A new record whose timers have not run out unless they had before. -/
theorem setRecord {r : CallRecord} (h : ∀ i, r.timer i = some 0 → (s.record x).timer i = some 0 := by exact fun _ => id) :
    s.Calm (s.setRecord x r) where
  timers y i hy := by
    by_cases hyx : y = x
    · subst hyx
      rw [State.record_setRecord_same] at hy
      exact h i hy
    · rwa [State.record_setRecord_ne _ _ _ _ hyx] at hy

theorem setRecord_fresh {r : CallRecord} (h : ∀ i, r.timer i ≠ some 0 := by exact CallRecord.timer_ne_zero) :
    s.Calm (s.setRecord x r) :=
  setRecord fun i hi => absurd hi (h i)

/-! ## Tables, reports, results and tickets -/

theorem report (r : Report) : s.Calm (s.report r) := by
  rw [State.report_eq]
  exact .of_kept

theorem setBusy (l : Option Line) (b : Option Circuit) : s.Calm (s.setBusy l b) := by
  rw [State.setBusy_eq]
  exact .of_kept

theorem handConnectResult (code : ResultCode) : s.Calm (s.handConnectResult x code) := by
  unfold State.handConnectResult
  split
  · exact (of_kept (t := s.handResult _ _ _)).trans .setRecord
  · exact .refl s

theorem linkOut (gk : LineGroup × LinkNo) : s.Calm (s.linkOut gk) :=
  (of_kept (t := s.modifyLink gk fun l => { l with inService := false })).trans (.report _)

theorem recordFault (xp : Crosspoint) (c : FaultCause) : s.Calm (s.recordFault xp c) :=
  .ite (.refl s) (.ite ((of_kept (t := s.addFault xp)).trans (.report _)) (.linkOut _))

theorem recordBreakFault (xp : Crosspoint) : s.Calm (s.recordBreakFault xp) :=
  .ite (.linkOut _) (.ite (((of_kept (t := s.addFault xp)).trans (.report _)).trans (.linkOut _)) (.linkOut _))

theorem enterGuard : s.Calm (s.enterGuard x) := .setRecord_fresh

theorem offerTicket (b : TicketBody) : s.Calm (s.offerTicket x b) :=
  .ite ((of_kept (t := s.enterHoldQueue b)).trans .enterGuard)
    ((of_kept (t := { s with closingWaiters := s.closingWaiters ++ [(x, b)] })).trans
      (.setRecord (r := closingRecord (s.record x))))

/-! ## Making and breaking paths (spec/03) -/

theorem markPoint (xp : Crosspoint) (m : Mark) : s.Calm (s.markPoint x xp m) := .setRecord

theorem issuePoint (xp : Crosspoint) (c : PortCommand) : s.Calm ((s.markPoint x xp .inFlight).issue c) :=
  (markPoint xp .inFlight).trans .of_kept

theorem startMakeJob : s.Calm (s.startMakeJob x) := by
  have hset : s.Calm (s.setRecord x { s.record x with state := .setting }) := .setRecord
  simp only [State.startMakeJob]
  split
  · exact hset.trans (.issuePoint _ _)
  · exact hset

theorem grantSlot : s.Calm s.grantSlot := by
  unfold State.grantSlot
  split
  · exact (of_kept (t := State.setOperateSlot { s with waitList := _ } _ _)).trans .startMakeJob
  · exact .refl s
  · exact .refl s

theorem freeSlotOf : s.Calm (s.freeSlotOf x) :=
  (of_kept (t := { s with operateSlots := s.operateSlots.map fun o => if o = some x then none else o })).trans .grantSlot

theorem joinWaitList : s.Calm (s.joinWaitList x) := (of_kept (t := { s with waitList := s.waitList ++ [x] })).trans .grantSlot

theorem freeLines : s.Calm (s.freeLines x) := (setBusy _ _).trans (.setBusy _ _)

theorem breakComplete : s.Calm (s.breakComplete x) := by
  have hfreed : s.Calm (((s.releaseRequest x).freeLines x).modifyRecord x fun r => { r with path := [] }) :=
    ((of_kept (t := s.releaseRequest x)).trans .freeLines).trans .setRecord
  simp only [State.breakComplete]
  exact .ite (hfreed.trans (.offerTicket _)) (hfreed.trans .enterGuard)

theorem breakNext : s.Calm (s.breakNext x) := by
  unfold State.breakNext
  split
  · exact .issuePoint _ _
  · exact .breakComplete

theorem markClearing (c : ClearCause) : s.Calm (s.markClearing x c) := by
  have hcleared : s.Calm (s.setRecord x { s.record x with
      state := .clearing, cause := some c, settle := none, calledClear := none, grace := none, releasePending := false }) :=
    .setRecord fun i => by
      match i with
      | 0 => exact nofun
      | 1 => exact nofun
      | 2 => exact id
  exact (hcleared.trans .of_kept).trans (.report _)

theorem enterClearing (c : ClearCause) : s.Calm (s.enterClearing x c) := (markClearing c).trans .breakNext

theorem endConnect (code : ResultCode) (c : ClearCause) :
    s.Calm (((s.freeSlotOf x).handConnectResult x code).enterClearing x c) :=
  (freeSlotOf.trans (.handConnectResult code)).trans (.enterClearing c)

/-! ## Hunts (spec/01) -/

theorem holdLinks (p : Path) : s.Calm (s.holdLinks x p) := by
  rw [State.holdLinks_eq]
  exact .of_kept

theorem localHunt {ex : Exclusion} {la lb : Line} {h : Hunted} (hh : s.localHunt ex la lb = some h) : s.Calm h.after := by
  unfold State.localHunt at hh
  split at hh
  next c _ =>
    obtain rfl := Option.some.inj hh
    exact (of_kept (t := { s with cordPtr := c + 1 })).trans (.holdLinks _)
  next => cases hh

theorem outgoingHunt {ex : Exclusion} {la : Line} {g : JunctionGroup} {h : Hunted} (hh : s.outgoingHunt ex la g = some h) :
    s.Calm h.after := by
  unfold State.outgoingHunt at hh
  split at hh
  next q _ =>
    obtain rfl := Option.some.inj hh
    exact (of_kept (t := { s with groupPtrs := s.groupPtrs.set g.val (q + 1) g.isLt })).trans (.holdLinks _)
  next => cases hh

theorem incomingHunt {lb : Line} {h : Hunted} (hh : s.incomingHunt x lb = some h) : s.Calm h.after := by
  unfold State.incomingHunt at hh
  split at hh
  next =>
    obtain rfl := Option.some.inj hh
    exact .holdLinks _
  next => cases hh

theorem rehunt {h : Hunted} (hh : s.rehunt x = some h) : s.Calm h.after := by
  unfold State.rehunt at hh
  simp only at hh
  split at hh
  · split at hh
    · exact .localHunt hh
    · cases hh
    · cases hh
  · split at hh
    · exact .outgoingHunt hh
    · cases hh
  · cases hh

/-! ## The failures of a make and of a break (R58, R59, R65) -/

theorem moveCall {h : Hunted} (hafter : s.Calm h.after) : s.Calm (s.moveCall x h) := by
  have hmoved : s.Calm (h.after.setRecord h.circuit (movedRecord (s.record x) h.circuit h.path)) := hafter.trans .setRecord_fresh
  have hbusy := (hmoved.trans (.setBusy (s.record x).calling (some h.circuit))).trans
    (.setBusy (calledLine (s.record x).called) (some h.circuit))
  have hfailed := hbusy.trans (.setRecord_fresh (x := x) (r := { CallRecord.blank .setting with path := (s.record x).path }))
  exact ((hfailed.trans (of_kept (t := State.passSlot _ x h.circuit))).trans (.enterClearing _)).trans .startMakeJob

theorem afterMakeFailure : s.Calm (s.afterMakeFailure x) := by
  refine .ite (.endConnect _ _) (.ite (.endConnect _ _) ?_)
  split
  next h hh => exact .moveCall (.rehunt hh)
  next => exact .endConnect _ _

theorem makeTimedOut (xp : Crosspoint) : s.Calm (s.makeTimedOut x xp) :=
  .ite (.refl s) (((markPoint xp .made).trans (.recordFault xp .makeTimeout)).trans .afterMakeFailure)

theorem breakFaulted (xp : Crosspoint) : s.Calm (s.breakFaulted x xp) :=
  .ite (.refl s) (((markPoint xp .unmade).trans (.recordBreakFault xp)).trans .breakNext)

/-! ## Charges, the Time Base and supervision (spec/02, spec/04, spec/05) -/

theorem chargeCaller : s.Calm (s.chargeCaller x) := by
  unfold State.chargeCaller
  split
  · exact .ite .of_kept (.ite (.refl s) ((of_kept (t := s.setLine _ _)).trans (.report _)))
  · exact .refl s

theorem chargeSettled : ∀ (n : Nat) (s : State), s.Calm (s.chargeSettled x n)
  | 0, s => .refl s
  | n + 1, _ => chargeCaller.trans (chargeSettled n _)

theorem addCredit (n : Nat) : s.Calm (s.addCredit x n) :=
  (setRecord (r := creditedRecord (s.record x) n)).trans (.chargeSettled _ _)

theorem bandChange (b : TimeBand) : s.Calm (s.bandChange b) := by
  have hflagged : ({ s with band := b } : State).Calm ({ s with band := b } : State).flagBandChanged :=
    { timers := fun y i => by
        rw [State.flagBandChanged_record]
        split
        · exact id
        · exact id }
  exact ((of_kept (t := { s with band := b })).trans hflagged).trans (.report _)

theorem reevaluateBand : s.Calm s.reevaluateBand := .ite (.refl s) (.bandChange _)

theorem setTime (minute second : Nat) : s.Calm (s.setTime minute second) :=
  (of_kept (t := { s with weekMinute := minute, second := second, tenths := 0, timeUnset := false })).trans .reevaluateBand

theorem loadCalendar (i : Fin 16) (e : CalEntry) : s.Calm (s.loadCalendar i e) :=
  (of_kept (t := { s with calendar := s.calendar.set i.val e i.isLt })).trans .reevaluateBand

theorem changedRecord {r : CallRecord} (e : Report)
    (h : ∀ i, r.timer i = some 0 → (s.record x).timer i = some 0 := by exact fun _ => id) : s.Calm ((s.setRecord x r).report e) :=
  (setRecord h).trans (.report e)

theorem enterFree : s.Calm (s.enterFree x) := .setRecord_fresh

theorem seize : s.Calm (s.seize x) := .changedRecord _

/-! ## RELEASE (R34, R62) -/

theorem releaseReserved : s.Calm (s.releaseReserved x) := by
  have hleft : s.Calm (({ s with waitList := s.waitList.filter fun y => y ≠ x } : State).releaseRequest x) := .of_kept
  have hfreed := ((hleft.trans (freeLines (x := x))).trans (handConnectResult (x := x) .released)).trans (enterFree (x := x))
  exact .ite (.ite (hfreed.trans .seize) (hfreed.trans (.report _))) hfreed

theorem releaseSetting : s.Calm (s.releaseSetting x) := by
  unfold State.releaseSetting
  split
  next xp _ =>
    exact (((((of_kept (t := s.withdraw (.makeCmd x xp))).trans (.markPoint xp .unmade)).trans (.markClearing .order)).trans
      .freeSlotOf).trans (.handConnectResult .released)).trans .breakNext
  next => exact .setRecord

end State.Calm

/-! ## The orders (spec/08, section 8.5) -/

/-- The state an order comes to. -/
def OrderOutcome.state : OrderOutcome → State
  | .result _ _ t => t
  | .admitted t => t
  | .later t => t

namespace State.Calm

variable {s : State} {w0 w1 w2 : Word}

theorem admitCall {h : Hunted} {r : CallRecord} (hafter : s.Calm h.after) (hr : ∀ i, r.timer i ≠ some 0) : s.Calm (admitCall h r) :=
  (((hafter.trans (.setRecord_fresh hr)).trans (.setBusy r.calling _)).trans (.setBusy (calledLine r.called) _)).trans .joinWaitList

theorem connectLocal (i : OrderSlot) (w0 w1 : Word) : s.Calm (applyConnectLocal i w0 w1 s).state := by
  unfold applyConnectLocal
  split
  · split
    · exact .refl s
    · split
      · exact .refl s
      · split
        next h hh => exact .admitCall (.localHunt hh) CallRecord.timer_ne_zero
        next => exact .refl s
  · exact .refl s
  · exact .refl s

theorem connectOutgoing (i : OrderSlot) (w0 w1 w2 : Word) : s.Calm (applyConnectOutgoing i w0 w1 w2 s).state := by
  unfold applyConnectOutgoing
  split
  · split
    · exact .refl s
    · split
      next h hh => exact .admitCall (.outgoingHunt hh) CallRecord.timer_ne_zero
      next => exact .refl s
  all_goals exact .refl s

theorem connectIncoming (i : OrderSlot) (w0 w1 : Word) : s.Calm (applyConnectIncoming i w0 w1 s).state := by
  unfold applyConnectIncoming
  split
  · split
    · exact .refl s
    · split
      · exact .refl s
      · split
        · exact .refl s
        · split
          next h hh => exact .admitCall (.incomingHunt hh) CallRecord.timer_ne_zero
          next => exact .refl s
  all_goals exact .refl s

theorem release (w0 : Word) : s.Calm (applyRelease w0 s).state := by
  unfold applyRelease
  split
  next x _ =>
    split
    case h_1 => exact .releaseReserved
    case h_2 => exact .releaseSetting
    case h_3 => exact .enterClearing _
    case h_4 => exact .enterClearing _
    all_goals exact .refl s
  next => exact .refl s

theorem addCreditOrder (w0 w1 : Word) : s.Calm (applyAddCredit w0 w1 s).state := by
  unfold applyAddCredit
  split
  · split
    · exact .refl s
    · split
      · exact .refl s
      · split
        · exact .refl s
        · exact .addCredit _
  · exact .refl s

theorem setMeter (i : OrderSlot) (w0 w1 w2 : Word) : s.Calm (applySetMeter i w0 w1 w2 s).state := by
  unfold applySetMeter
  repeat' split
  all_goals exact .of_kept

theorem setTimeOrder (w0 w1 : Word) : s.Calm (applySetTime w0 w1 s).state := by
  unfold applySetTime
  split
  · exact .refl s
  · exact .setTime _ _

theorem loadCalendarOrder (w0 w1 w2 : Word) : s.Calm (applyLoadCalendar w0 w1 w2 s).state := by
  unfold applyLoadCalendar
  split
  · split
    · exact .loadCalendar _ _
    · split
      · split
        · exact .loadCalendar _ _
        · exact .refl s
      · exact .refl s
  · exact .refl s

/-- The orders that set one entry of a table: SET CLASS, LOAD TARIFF, SET FAULT, CLEAR FAULT and SERVICE. -/
theorem tableOrder {o : OrderOutcome}
    (h : o ∈ [applySetClass w0 w1 s, applyClearFaultMeter w1 s, applyLoadTariff w0 w1 w2 s, applySetFault w0 w1 w2 s,
      applyClearFault w0 w1 w2 s, applyServiceLink w1 w2 s, applyServiceCircuit w1 w2 s]) : s.Calm o.state := by
  simp only [List.mem_cons, List.not_mem_nil, or_false] at h
  rcases h with rfl | rfl | rfl | rfl | rfl | rfl | rfl
  · unfold applySetClass
    repeat' split
    all_goals exact .of_kept
  · unfold applyClearFaultMeter
    repeat' split
    all_goals exact .of_kept
  · unfold applyLoadTariff
    repeat' split
    all_goals exact .of_kept
  · unfold applySetFault
    repeat' split
    all_goals exact .of_kept
  · unfold applyClearFault
    repeat' split
    all_goals exact .of_kept
  · unfold applyServiceLink
    repeat' split
    all_goals exact .of_kept
  · unfold applyServiceCircuit
    repeat' split
    all_goals exact .of_kept

theorem applyOrder (e : OrderEntry) (s : State) : s.Calm (applyOrder e s).state := by
  unfold Sys2Proof.Machine.applyOrder
  split
  case h_1 => exact .connectLocal _ _ _
  case h_2 => exact .connectOutgoing _ _ _ _
  case h_3 => exact .connectIncoming _ _ _
  case h_4 => exact .release _
  case h_5 => exact .addCreditOrder _ _
  case h_6 => exact .tableOrder (w0 := e.w0) (w1 := e.w1) (w2 := e.w2) (by simp)
  case h_7 => exact .setMeter _ _ _ _
  case h_8 => exact .setTimeOrder _ _
  case h_9 => exact .tableOrder (w0 := e.w0) (w1 := e.w1) (w2 := e.w2) (by simp)
  case h_10 => exact .loadCalendarOrder _ _ _
  case h_11 => exact .tableOrder (w0 := e.w0) (w1 := e.w1) (w2 := e.w2) (by simp)
  case h_12 =>
    split
    all_goals exact .tableOrder (w0 := e.w0) (w1 := e.w1) (w2 := e.w2) (by simp)
  case h_13 =>
    split
    · exact .tableOrder (w0 := e.w0) (w1 := e.w1) (w2 := e.w2) (by simp)
    · split
      · exact .tableOrder (w0 := e.w0) (w1 := e.w1) (w2 := e.w2) (by simp)
      · exact .refl s
  case h_14 => exact .refl s

/-! ## The dispatcher (R142, R145, R146, R148) -/

theorem dispatch (e : OrderEntry) : s.Calm (s.dispatch e) := by
  have horder : s.Calm (Sys2Proof.Machine.applyOrder e (s.setSlotState e.slot .inFlight)).state :=
    (of_kept (t := s.setSlotState e.slot .inFlight)).trans (.applyOrder e _)
  unfold State.dispatch
  cases hout : Sys2Proof.Machine.applyOrder e (s.setSlotState e.slot .inFlight) with
  | admitted t => rwa [hout] at horder
  | result code x t =>
    rw [hout] at horder
    exact horder.trans .of_kept
  | later t =>
    rw [hout] at horder
    exact horder.trans .of_kept

/-- A place is kept for a stretched write alone. -/
theorem keepPlace : s.Calm s.keepPlace where
  timing := by
    unfold State.keepPlace
    split <;> rfl
  stretch hs := by
    unfold State.keepPlace
    rw [hs]
    exact hs
  timers y i := by
    unfold State.keepPlace
    split <;> exact id

theorem runDispatcher : ∀ (n : Nat) (s : State), s.Calm (runDispatcher n s)
  | 0, s => .refl s
  | n + 1, s => by
    unfold Sys2Proof.Machine.runDispatcher
    split
    next e rest _ _ =>
      exact (((of_kept (t := { s with orderQueue := rest })).trans .keepPlace).trans (.dispatch e)).trans (runDispatcher n _)
    next => exact .refl s
    next => exact .refl s

theorem takeOrder (e : OrderEntry) : s.Calm (s.takeOrder e) := (of_kept (t := s.enqueueOrder e)).trans (.runDispatcher _ _)

/-! ## The ends of sequences -/

theorem resultWriteDone : s.Calm s.resultWriteDone := by
  cases hr : s.results with
  | nil =>
    simp only [State.resultWriteDone, hr]
    exact .of_kept
  | cons r rest =>
    rw [State.resultWriteDone_eq hr]
    exact (of_kept (t := s.resultWritten r rest)).trans (.runDispatcher _ _)

theorem burstEnd : s.Calm s.burstEnd := by
  cases hk : s.holdQueue with
  | nil =>
    simp only [State.burstEnd, hk]
    exact .of_kept
  | cons k rest =>
    rw [State.burstEnd_eq hk]
    unfold State.admitWaiter
    split
    · exact (of_kept (t := State.enterHoldQueue _ _)).trans .enterGuard
    · exact .of_kept

theorem setMeterDone : s.Calm s.setMeterDone := by
  cases hj : s.setMeterJob with
  | none =>
    simp only [State.setMeterDone, hj]
    exact .of_kept
  | some j =>
    rw [State.setMeterDone_eq hj]
    exact .of_kept

theorem postingFault (l : Line) (found : MeterFault) : s.Calm (s.postingFault l found) := by
  simp only [State.postingFault]
  split
  · exact (of_kept (t := s.setLine l _)).trans (.report _)
  · exact (of_kept (t := s.setLine l _)).trans (.report _)
  · exact .refl s
  · exact .refl s

theorem postingClean (p : Posting) : s.Calm (s.postingClean p) :=
  .ite (by rw [State.postingDone, State.meterPosted_eq]; exact .of_kept) ((postingFault _ _).trans .of_kept)

/-- An order write that completes ends its cycle and takes its order. -/
theorem orderWriteDone {a v : Word} (hcycles : s.cycles = [.write a v]) : ({ s with cycles := [] } : State).Calm (s.orderWriteDone a v) := by
  have hended : ({ s with cycles := [] } : State).Calm ((s.writeMem a v).endCycle .prdy none).freePort :=
    { timing := by
        simp only [State.timing, State.freePort, State.endCycle, State.writeMem, hcycles, List.tail_cons]
      stretch := fun _ => rfl }
  simp only [State.orderWriteDone]
  split
  · exact .ite (hended.trans (.takeOrder _)) hended
  all_goals exact hended

end State.Calm

/-! ## The end event of what owns the port (R162, R165, R167) -/

/-- What owns the port has its end as a command, it answers what waits of the processor, and it is calm. -/
theorem State.EndsBy.finishes {s : State} {i : Instr} (hp : s.phase ≠ .held) (h : s.EndsBy i) :
    exec i s = .next s.finishOwner.askPort ∧ ({ s with cycles := [] } : State).Calm s.finishOwner := by
  rcases h with ⟨howner, rfl, a, v, hcycles⟩ | ⟨hcycles, h⟩
  · have hfinish : s.finishOwner = s.orderWriteDone a v := by
      simp only [State.finishOwner, howner, State.processorAccessDone, hcycles]
    refine ⟨(running_next State.orderTakenEvent hp).trans ?_, hfinish ▸ .orderWriteDone hcycles⟩
    simp only [State.orderTakenEvent, howner, if_true, State.finishOwner]
  · have hsame : ({ s with cycles := [] } : State) = s := by rw [← hcycles]
    rw [hsame]
    rcases h with ⟨howner, rfl⟩ | ⟨howner, rfl⟩ | ⟨howner, rfl⟩ | ⟨p, howner, rfl⟩
    · refine ⟨(running_next State.resultWriteEvent hp).trans ?_, ?_⟩
      · simp only [State.resultWriteEvent, howner, if_true, State.finishOwner]
      · simp only [State.finishOwner, howner]
        exact .resultWriteDone
    · refine ⟨(running_next State.burstEndEvent hp).trans ?_, ?_⟩
      · simp only [State.burstEndEvent, howner, if_true, State.finishOwner]
      · simp only [State.finishOwner, howner]
        exact .burstEnd
    · refine ⟨(running_next State.setMeterEvent hp).trans ?_, ?_⟩
      · simp only [State.setMeterEvent, howner, if_true, State.finishOwner]
      · simp only [State.finishOwner, howner]
        exact .setMeterDone
    · have hposting  := State.postingInProgress_posting howner
      have hfinish : s.finishOwner = s.postingClean p := by simp only [State.finishOwner, howner]
      refine ⟨?_, hfinish ▸ .postingClean p⟩
      rw [hfinish]
      by_cases hvalid : s.meterReadsValid p.line = true
      · rw [if_pos hvalid]
        refine (running_next State.postingEndEvent hp).trans ?_
        simp only [State.postingEndEvent, hposting, hvalid, if_true, State.postingClean]
      · rw [if_neg hvalid]
        refine (running_next State.postingCorruptEvent hp).trans ?_
        simp only [State.postingCorruptEvent, hposting, State.postingClean, if_neg hvalid]

theorem State.EndsBy.cycles {s : State} {i : Instr} (hp : s.phase ≠ .held) (h : s.EndsBy i) : s.finishOwner.cycles = [] :=
  congrArg Prod.fst (h.finishes hp).2.timing

end Sys2Proof.Machine
end

section
/-!
PROOF. The two resets (O9, O11): what owns the port ends first, and what that leaves is cleared.
-/

namespace Sys2Proof.Machine

set_option Elab.async false

/-! ## What owns the port at a reset -/

theorem State.finishOwner_none {s : State} (h : s.owner = .none) : s.finishOwner = s := by
  simp only [State.finishOwner, h]

/-- A passed read outside the regions, whose access is under way, completes (R167). -/
theorem State.finishOwner_read {s : State} {a : Word} (hready : s.phase = .ready) (ho : s.owner = .passed)
    (hc : s.cycles = [.read a false]) (h : s.map.region a = .outside) :
    s.finishOwner =
      { s with ends := s.ends ++ [.prdyWord (s.readMem a)], cycles := [], readPair := none, stretch := .none, owner := .none,
               accessLeft := 0 } := by
  rw [State.finishOwner_passed s _ _ ho hc, State.performCycle_readOutside hready h]
  simp only [State.endCycle, State.freePort, hc, List.tail_cons]

theorem State.resetValues_ends (s : State) (h : s.cycles = []) : s.resetValues.ends = s.ends := by
  simp only [State.resetValues, h, List.map_nil, List.append_nil]

/-- Settles O9: every block takes its reset value on the state that the end event leaves. -/
theorem masterResetLeavesResetValues : Obligations.MasterResetLeavesResetValues := by
  intro s
  refine ⟨s.finishOwner.resetValues, rfl, rfl, rfl, rfl, rfl, rfl, rfl, rfl, ?_, rfl, rfl, rfl, ?_, ?_, rfl, rfl, ?_, ?_, rfl, rfl, rfl,
    ?_, ?_, ?_, rfl, rfl, rfl, rfl, rfl, ?_, ?_, rfl, rfl, rfl, rfl, rfl, rfl, rfl, rfl, rfl, rfl, rfl, rfl, rfl, rfl, rfl, rfl, rfl,
    rfl, rfl, rfl, ?_, ?_, ?_⟩
  · exact fun i => Vector.getElem_replicate i.isLt
  · exact fun gk => Vector.getElem_replicate (linkIndex gk).isLt
  · exact fun x => Vector.getElem_replicate x.isLt
  · exact fun g => Vector.getElem_replicate g.isLt
  · exact fun i => Vector.getElem_replicate i.isLt
  · exact fun p => Vector.getElem_replicate p.isLt
  · exact fun x => Vector.getElem_replicate x.isLt
  · exact fun l => Vector.getElem_replicate l.isLt
  · exact fun i => congrArg CalEntry.valid (Vector.getElem_replicate i.isLt)
  · exact fun d b => Vector.getElem_replicate (tariffIndex d b).isLt
  · intro ho
    rw [State.finishOwner_none ho]
    exact ⟨fun _ => rfl, rfl⟩
  · intro i hp hi
    have hcycles := hi.cycles hp
    have hask := State.askPort_arbiterOnly _ hcycles
    refine ⟨_, (hi.finishes hp).1, ?_, fun a => ?_⟩
    · rw [State.resetValues_ends _ hcycles, hask]
    · rw [State.readMem, State.readMem, hask.mem]
      rfl
  · intro a hready ho hc ha
    rw [State.finishOwner_read hready ho hc ha]
    exact ⟨State.resetValues_ends _ rfl, fun _ => rfl⟩

/-! ## Partial reset -/

/-- With no processor cycle to grant, every grant of the arbiter makes the grant count 0 (R164). -/
theorem arbitrate_grantCount (whole : Bool) : ∀ (n : Nat) (s : State), s.cycles = [] → s.grantCount = 0 →
    (arbitrate whole n s).grantCount = 0
  | 0, _, _, hg => hg
  | n + 1, s, hc, hg => by
    have hraised : s.raiseRequests.cycles = [] := by rw [State.raiseRequests_cycles, hc]
    have hcount : s.raiseRequests.grantCount = 0 := by rw [State.raiseRequests_eq]; exact hg
    rw [arbitrate_succ, if_neg (State.processorWins_none hraised)]
    split
    · exact hcount
    · split
      · refine arbitrate_grantCount whole n _ ?_ ?_
        · rw [(State.grantPart_arbiterOnly _).cycles, hraised]
        · unfold State.grantPart State.grantMeter State.choosePosting
          simp only
          repeat' split
          all_goals rfl
      · exact hcount

/-- What a partial reset clears (R153, R164, R167 to R169, R171). -/
def State.partialCleared (s : State) : State := s.resetPort.resetOrders.resetReports

theorem State.partialCleared_slot (s : State) (i : OrderSlot) : s.partialCleared.slot i = { state := .idle, w0 := 0, w1 := 0, w2 := 0 } :=
  Vector.getElem_replicate i.isLt

theorem State.endStretched_records (s : State) : s.endStretched.records = s.records := by
  unfold State.endStretched
  split <;> rfl

theorem State.partialCleared_record (s : State) (x : Circuit) : s.partialCleared.record x = { s.record x with boundSlot := none } := by
  have hrecords : s.partialCleared.records = s.records.map fun r => { r with boundSlot := none } :=
    congrArg (fun rs => rs.map fun r : CallRecord => ({ r with boundSlot := none } : CallRecord)) s.endStretched_records
  rw [State.record, hrecords]
  exact Vector.getElem_map ..

/-- The end event, the reset of what that leaves, and the arbiter's choice. -/
theorem exec_partialReset {s u : State} (hp : s.phase ≠ .held) (hu : s.finishOwner = u) (hc : u.partialCleared.cycles = []) :
    ∃ t, exec .partialReset s = .next t ∧ State.ArbiterOnly u.partialCleared t ∧ t.grantCount = 0 := by
  subst hu
  exact ⟨_, running_next State.partialReset hp, State.askPort_arbiterOnly _ hc, arbitrate_grantCount false _ _ hc rfl⟩

theorem State.ArbiterOnly.partialReset_slot {u t : State} (h : State.ArbiterOnly u.partialCleared t) (i : OrderSlot) :
    t.slot i = { state := .idle, w0 := 0, w1 := 0, w2 := 0 } := (h.slot i).trans (u.partialCleared_slot i)

theorem State.ArbiterOnly.partialReset_record {u t : State} (h : State.ArbiterOnly u.partialCleared t) (x : Circuit) :
    t.record x = { u.record x with boundSlot := none } := (h.record x).trans (u.partialCleared_record x)

/-- The frame of a partial reset, the slots and records being those of the state after it. -/
theorem State.ArbiterOnly.partialReset_frame {u t : State} (h : State.ArbiterOnly u.partialCleared t) :
    State.ArbiterOnly
      { u.endStretched with
        readPair := none, setMeterJob := none, slots := t.slots, orderQueue := [], results := [], dispatcher := .ready,
        records := t.records, reports := [], latch := none, reportsLost := false, memoryError := false,
        guardedWrite := false } t := by
  have hrecords : t.records = u.partialCleared.records := by rw [h]
  rw [h.slots, hrecords]
  exact h.rebase

theorem State.endStretched_none {s : State} (h : s.stretch = .none) : s.endStretched = s := by
  simp only [State.endStretched, h]

/-- Settles O11: the end event first, then the reset of the Order Unit, the Report Unit and the Call Store Path. -/
theorem partialResetClearsOrdersAndReports : Obligations.PartialResetClearsOrdersAndReports := by
  refine ⟨fun s e hp ho hcase => ?_, fun s a hready hst ho hc ha => ?_, fun s i hp hst hi => ?_⟩
  · have hended : s.endStretched =
        { s with ends := s.ends ++ e, cycles := [], stretch := .none, readPair := s.endStretched.readPair } := by
      rcases hcase with ⟨hst, hc, rfl⟩ | ⟨n, c, hst, hc, rfl⟩
      · rw [State.endStretched_none hst, List.append_nil, ← hc, ← hst]
      · simp only [State.endStretched, hst, State.endCycle, hc, List.tail_cons]
    have hcycles : s.partialCleared.cycles = [] := by
      show s.endStretched.cycles = []
      rw [hended]
    obtain ⟨t, ht, harb, hgrants⟩ := exec_partialReset hp (State.finishOwner_none ho) hcycles
    have hframe := harb.partialReset_frame
    have hreports : t.reports = [] := by rw [harb]; rfl
    rw [hended] at hframe
    exact ⟨t, ht, hframe, hgrants, by rw [State.attnActive, hreports]; rfl, harb.partialReset_slot, harb.partialReset_record⟩
  · have hp : s.phase ≠ .held := by rw [hready]; exact Phase.noConfusion
    obtain ⟨t, ht, harb, -⟩ := exec_partialReset hp (State.finishOwner_read hready ho hc ha) rfl
    have hframe := harb.partialReset_frame
    rw [State.endStretched_none rfl] at hframe
    refine ⟨t, ht, hframe.rebase ?_, harb.partialReset_slot, harb.partialReset_record⟩
    rw [← hst]
    rfl
  · have hcycles := hi.cycles hp
    have hstretch : s.finishOwner.stretch = .none := (hi.finishes hp).2.stretch hst
    have hended := State.endStretched_none hstretch
    have hask := State.askPort_arbiterOnly _ hcycles
    obtain ⟨t, ht, harb, -⟩ := exec_partialReset hp rfl (u := s.finishOwner)
      (by show s.finishOwner.endStretched.cycles = []; rw [hended, hcycles])
    have hframe := harb.partialReset_frame
    rw [hended] at hframe
    refine ⟨t, _, (hi.finishes hp).1, ht, hframe.rebase ?_, harb.partialReset_slot, fun x => ?_⟩
    · rw [hask]
      rfl
    · rw [harb.partialReset_record, hask.record]

end Sys2Proof.Machine
end

section
/-!
PROOF. The CLK period: what is not due changes nothing, what a quiet state is after its period has been counted, and the events that
may come between are calm.
-/

namespace Sys2Proof.Machine

set_option Elab.async false

/-! ## What is not due -/

/-- No word ends or begins on MXO. -/
def State.WireStill (s : State) : Prop := (s.onWire ≠ none → s.wireLeft ≠ 0) ∧ (s.onWire = none → s.bitClock ≠ 0)

/-- No response timer has run out. -/
def State.ResponsesStill (s : State) : Prop := ∀ o ∈ s.outstanding, o.left ≠ 0

/-- No timer of record `x` has run out. -/
def State.RecordStill (s : State) (x : Circuit) : Prop := ∀ i, (s.record x).timer i ≠ some 0

/-- Neither divider has come round. -/
def State.DividersStill (s : State) : Prop := s.scanDivider < 40960 ∧ s.tickDivider < 409600

section Due

variable {s : State}

theorem State.dueStretch_still (h : s.stretch = .none) : s.dueStretch = s := by
  simp only [State.dueStretch, h, reduceCtorEq, if_false]

theorem State.dueWire_still (h : s.WireStill) : s.dueWire = s := by
  obtain ⟨hbusy, hidle⟩ := h
  unfold State.dueWire
  split
  next c hc => exact if_neg (hbusy (by rw [hc]; exact Option.some_ne_none c))
  next hn => exact if_neg (hidle hn)

theorem State.dueResponses_still (h : s.ResponsesStill) : s.dueResponses = s := by
  have hnone : s.outstanding.filter (fun o => decide (o.left = 0)) = [] :=
    List.filter_eq_nil_iff.mpr fun o ho => by simpa using h o ho
  rw [State.dueResponses, hnone]
  rfl

theorem ranOut_false {t : Option Nat} (h : t ≠ some 0) : ranOut t = false := decide_eq_false h

theorem State.dueRecord_still {x : Circuit} (h : s.RecordStill x) : s.dueRecord x = s := by
  have hsettle : ranOut (s.record x).settle = false := ranOut_false (h 0)
  have hcalled : ranOut (s.record x).calledClear = false := ranOut_false (h 1)
  have hguard : ranOut (s.record x).guardTimer = false := ranOut_false (h 2)
  simp only [State.dueRecord, hsettle, hcalled, hguard, Bool.false_eq_true, if_false]

theorem State.foldl_dueRecord_still : ∀ l : List Circuit, (∀ x ∈ l, s.RecordStill x) → l.foldl State.dueRecord s = s
  | [], _ => rfl
  | x :: rest, h => by
    rw [List.foldl_cons, State.dueRecord_still (h x List.mem_cons_self)]
    exact State.foldl_dueRecord_still rest fun y hy => h y (List.mem_cons_of_mem x hy)

theorem State.dueRecords_still (h : ∀ x, s.RecordStill x) : s.dueRecords = s := State.foldl_dueRecord_still _ fun x _ => h x

/-- With one record alone due, its expiry is what the period takes. -/
theorem State.dueRecords_single {x : Circuit} (h : ∀ y, y ≠ x → s.RecordStill y)
    (hafter : ∀ y, y ≠ x → (s.dueRecord x).RecordStill y) : s.dueRecords = s.dueRecord x := by
  obtain ⟨before, after, hl⟩ := List.append_of_mem (List.mem_finRange x)
  have hnodup : (before ++ x :: after).Nodup := hl ▸ List.nodup_finRange 56
  have hbefore : ∀ y ∈ before, y ≠ x := fun y hy e => by
    have := List.disjoint_of_nodup_append hnodup hy
    exact this (e ▸ List.mem_cons_self)
  have hrest : ∀ y ∈ after, y ≠ x := fun y hy e => by
    obtain ⟨-, htail, -⟩ := List.nodup_append.mp hnodup
    exact (List.nodup_cons.mp htail).1 (e ▸ hy)
  rw [State.dueRecords, hl, List.foldl_append, State.foldl_dueRecord_still before fun y hy => h y (hbefore y hy), List.foldl_cons]
  exact State.foldl_dueRecord_still after fun y hy => hafter y (hrest y hy)

theorem State.dueScan_still (h : s.scanDivider < 40960) : s.dueScan = s := if_neg (Nat.not_le.mpr h)

theorem State.dueTick_still (h : s.tickDivider < 409600) : s.dueTick = s := if_neg (Nat.not_le.mpr h)

/-- The port is not at its owner's end. -/
theorem State.duePort_still (h : s.owner ≠ .none → 4 < s.accessLeft) : s.duePort = s := by
  by_cases ho : s.owner = .none
  · rw [State.duePort, State.finishOwner_none ho, ite_self]
  · have hleft := h ho
    have hdue : s.ownerDue = false := by
      have hzero : decide (s.accessLeft = 0) = false := decide_eq_false (by omega)
      have hreads : decide (s.accessLeft ≤ 2 * Config.accessPeriods) = false := decide_eq_false (Nat.not_le.mpr hleft)
      unfold State.ownerDue
      split
      all_goals simp only [hzero, hreads, Bool.false_and, Bool.or_false]
    rw [State.duePort, hdue]
    rfl

/-- At the end of the last access the owner's end event is taken. -/
theorem State.duePort_end (h : s.accessLeft = 0) : s.duePort = s.finishOwner := by
  have hdue : s.ownerDue = true := by
    unfold State.ownerDue
    split
    all_goals simp only [h, decide_true, Bool.true_or]
  rw [State.duePort, hdue, if_pos rfl]

/-- After its two reads a posting of a corrupt record ends (R103, R165). -/
theorem State.duePort_corrupt {p : Posting} (ho : s.owner = .posting p) (h : s.accessLeft ≤ 4)
    (hcorrupt : ¬ s.meterReadsValid p.line = true) : s.duePort = s.finishOwner := by
  have hdue : s.ownerDue = true := by
    simp only [State.ownerDue, ho, Bool.or_eq_true, Bool.and_eq_true, decide_eq_true_eq]
    exact .inr ⟨h, by simpa using hcorrupt⟩
  rw [State.duePort, hdue, if_pos rfl]

end Due

/-! ## The counted state -/

section Counted

variable {s : State}

theorem State.countPeriod_eq (s : State) : s.countPeriod = s.periodCounted := rfl

/-- A step with nothing waiting, MRST not active: what is due is taken in its order, and the arbiter chooses. -/
theorem step_period (hpending : s.pending = []) (hp : s.phase ≠ .held) :
    step s = .next s.periodCounted.duePort.dueStretch.dueWire.dueResponses.dueRecords.dueScan.dueTick.askPort := by
  have hclock : step s = .next s.clockPeriod := by simp only [step, hpending]
  have hheld : ¬ s.isHeld = true := by simpa [State.isHeld] using hp
  rw [hclock, State.clockPeriod, if_neg hheld, State.countPeriod_eq]

theorem State.periodCounted_record (x : Circuit) : s.periodCounted.record x = (s.record x).countTimers := Vector.getElem_map ..

theorem State.periodCounted_timer (x : Circuit) (i : Fin 3) :
    (s.periodCounted.record x).timer i = ((s.record x).timer i).map fun n => n - 1 := by
  rw [State.periodCounted_record]
  match i with
  | 0 => rfl
  | 1 => rfl
  | 2 => rfl

theorem State.periodCounted_stretch (h : s.stretch = .none) : s.periodCounted.stretch = .none := by
  simp only [State.periodCounted, h]

theorem State.WireQuiet.counted (h : s.WireQuiet) : s.periodCounted.WireStill := by
  obtain ⟨hbusy, hidle⟩ := h
  refine ⟨fun hw => ?_, fun hw => ?_⟩
  · exact Nat.sub_ne_zero_of_lt (hbusy hw)
  · have hlt := hidle hw
    show (if s.bitClock + 1 < 64 then s.bitClock + 1 else 0) ≠ 0
    rw [if_pos hlt]
    exact Nat.succ_ne_zero _

theorem State.ResponsesQuiet.counted (h : s.ResponsesQuiet) : s.periodCounted.ResponsesStill := by
  intro o ho
  obtain ⟨q, hq, rfl⟩ := List.mem_map.mp ho
  exact Nat.sub_ne_zero_of_lt (h q hq)

theorem State.periodCounted_still {x : Circuit} {i : Fin 3} (h : ∀ n, (s.record x).timer i = some n → 1 < n) :
    (s.periodCounted.record x).timer i ≠ some 0 := by
  rw [State.periodCounted_timer]
  intro hzero
  obtain ⟨n, hn, hn0⟩ := Option.map_eq_some_iff.mp hzero
  exact Nat.sub_ne_zero_of_lt (h n hn) hn0

theorem State.RecordQuiet.counted {x : Circuit} (h : s.RecordQuiet x) : s.periodCounted.RecordStill x := by
  obtain ⟨hsettle, hguard, hcalled⟩ := h
  intro i
  match i with
  | 0 => exact State.periodCounted_still (i := 0) hsettle
  | 1 => exact State.periodCounted_still (i := 1) hcalled
  | 2 => exact State.periodCounted_still (i := 2) hguard

theorem State.PortQuiet.counted (h : s.PortQuiet) :
    s.periodCounted.duePort = s.periodCounted ∧ s.periodCounted.dueStretch = s.periodCounted := by
  obtain ⟨howner, hstretch⟩ := h
  exact ⟨State.duePort_still fun ho => Nat.lt_sub_of_add_lt (howner ho), State.dueStretch_still (State.periodCounted_stretch hstretch)⟩

end Counted

/-! ## What a calm event leaves still -/

section Calm

variable {s t : State}

theorem State.Calm.recordStill (h : s.Calm t) {x : Circuit} (hs : s.RecordStill x) : t.RecordStill x :=
  fun i ht => hs i (h.timers x i ht)

theorem State.Calm.dividers (h : s.Calm t) : t.scanDivider = s.scanDivider ∧ t.tickDivider = s.tickDivider := by
  have htiming := h.timing
  simp only [State.timing, Prod.mk.injEq] at htiming
  exact htiming.2.2.2.2.2

theorem State.Calm.wireStill (h : s.Calm t) (hs : s.WireStill) : t.WireStill := by
  have htiming := h.timing
  simp only [State.timing, Prod.mk.injEq] at htiming
  obtain ⟨-, hwire, hleft, hclock, -⟩ := htiming
  unfold State.WireStill
  rw [hwire, hleft, hclock]
  exact hs

theorem State.Calm.responsesStill (h : s.Calm t) (hs : s.ResponsesStill) : t.ResponsesStill := by
  have htiming := h.timing
  simp only [State.timing, Prod.mk.injEq] at htiming
  obtain ⟨-, -, -, -, houtstanding, -⟩ := htiming
  unfold State.ResponsesStill
  rw [houtstanding]
  exact hs

theorem State.Calm.dividersStill (h : s.Calm t) (hs : s.DividersStill) : t.DividersStill := by
  obtain ⟨hscan, htick⟩ := h.dividers
  unfold State.DividersStill
  rw [hscan, htick]
  exact hs

theorem State.ArbiterOnly.calm (h : State.ArbiterOnly s t) : s.Calm t := by
  rw [h]
  exact .of_kept

/-- With records and dividers still the rest of the period changes nothing. -/
theorem State.dueDividers_still (hrecords : ∀ x, s.RecordStill x) (hdividers : s.DividersStill) :
    s.dueRecords.dueScan.dueTick = s := by
  rw [State.dueRecords_still hrecords, State.dueScan_still hdividers.1, State.dueTick_still hdividers.2]

/-- After a calm event at the port nothing else is due in the period. -/
theorem State.Calm.due_still (h : s.Calm t) (hstretch : s.stretch = .none) (hwire : s.WireStill) (hresponses : s.ResponsesStill)
    (hrecords : ∀ x, s.RecordStill x) (hdividers : s.DividersStill) :
    t.dueStretch.dueWire.dueResponses.dueRecords.dueScan.dueTick = t := by
  rw [State.dueStretch_still (h.stretch hstretch), State.dueWire_still (h.wireStill hwire),
    State.dueResponses_still (h.responsesStill hresponses),
    State.dueDividers_still (fun x => h.recordStill (hrecords x)) (h.dividersStill hdividers)]

/-! ## The expiries are calm -/

variable {x : Circuit}

theorem State.Calm.startGrace : s.Calm (s.startGrace x) := by
  have htoned : ∀ u : State, u.Calm (u.issuePayTone x) := fun u => .ite (.refl u) .of_kept
  exact (((setRecord (r := { s.record x with grace := some Config.graceTicks })).trans (htoned _)).trans .setRecord).trans (.report _)

theorem State.Calm.charged {r : CallRecord} (h : ∀ i, r.timer i = some 0 → (s.record x).timer i = some 0 := by exact fun _ => id) :
    s.Calm ((s.setRecord x r).chargeCaller x) := (setRecord h).trans .chargeCaller

theorem State.Calm.pulse : s.Calm (s.pulse x) :=
  .ite (.ite (.ite .setRecord (trans .setRecord .startGrace)) (.ite (trans .charged .startGrace) .charged)) .charged

theorem State.Calm.pulses : ∀ (n : Nat) (s : State), s.Calm (s.pulses x n)
  | 0, s => .refl s
  | n + 1, _ => State.Calm.pulse.trans (State.Calm.pulses n _)

theorem State.Calm.answer : s.Calm (s.answer x) := .ite (.changedRecord _) (trans (.changedRecord _) (.pulses _ _))

theorem State.Calm.settleExpired : s.Calm (s.settleExpired x) := by
  have hstopped : s.Calm (s.setRecord x { s.record x with settle := none }) := .setRecord fun i => by
    match i with
    | 0 => exact nofun
    | 1 => exact id
    | 2 => exact id
  exact .ite (.ite (hstopped.trans (.enterClearing _)) (.ite (hstopped.trans .answer) hstopped)) (.refl s)

theorem State.Calm.calledClearExpired : s.Calm (s.calledClearExpired x) := .ite (.enterClearing _) (.refl s)

theorem State.Calm.guardExpired : s.Calm (s.guardExpired x) := .ite (.ite (State.Calm.enterFree.trans .seize) .enterFree) (.refl s)

/-- A matched response leaves what its job leaves on the state without its entry. -/
theorem State.matched_calm {f : State → Circuit → State} (hf : ∀ (u : State) (y : Circuit), u.Calm (f u y)) (k : JobKind)
    (xp : Crosspoint) (hcycles : s.cycles = []) :
    ∃ rest, ({ s with outstanding := rest } : State).Calm (s.matched k xp f) := by
  unfold State.matched
  split
  next o _ =>
    have hjob := hf (s.dropOutstanding k xp) o.circuit
    have hdone : (f (s.dropOutstanding k xp) o.circuit).cycles = [] := (congrArg Prod.fst hjob.timing).trans hcycles
    exact ⟨_, hjob.trans (State.askPort_arbiterOnly _ hdone).calm⟩
  next => exact ⟨_, .refl s⟩

end Calm

end Sys2Proof.Machine
end

section
/-!
PROOF. One CLK period (O3): nothing due, or one thing due, taken as its command takes it.
-/

namespace Sys2Proof.Machine

set_option Elab.async false

/-! ## A cycle that memory completes (R162) -/

/-- The treatments of a cycle that is passed to memory. -/
inductive PassedBy : Cycle → (State → State) → Prop
  | read (a : Word) (mperr : Bool) (pair : Option Line) : PassedBy (.read a mperr) fun u => u.passRead a mperr pair
  | write (a v : Word) : PassedBy (.write a v) fun u => u.passWrite a v
  | argument (a v : Word) (i : OrderSlot) (n : Nat) : PassedBy (.write a v) fun u => (u.passWrite a v).capture i n v
  | readIndex (a v : Word) : PassedBy (.write a v) fun u => (u.passWrite a v).judgeReadIndex v

/-- A passed cycle is treated by one of them, the same in every state with the same phase and region map. -/
theorem State.passedBy {s : State} {c : Cycle} (h : s.isPassed c = true) :
    ∃ f, PassedBy c f ∧ ∀ u : State, u.phase = s.phase → u.map = s.map → u.performCycle c = f u := by
  cases hphase : s.phase with
  | held => simp [State.isPassed, hphase] at h
  | loading taken =>
    cases c with
    | read a mperr => exact ⟨_, .read a mperr none, fun u hu _ => by simp only [State.performCycle, hu]⟩
    | write a v => simp [State.isPassed, hphase] at h
  | ready =>
    cases c with
    | read a mperr =>
      cases hregion : s.map.region a with
      | cells off => simp [State.isPassed, hphase, hregion] at h
      | calls off => simp [State.isPassed, hphase, hregion] at h
      | meter off =>
        exact ⟨_, .read a mperr (meterPair off), fun u hu hm => by simp only [State.performCycle, State.readyRead, hu, hm, hregion]⟩
      | _ => exact ⟨_, .read a mperr none, fun u hu hm => by simp only [State.performCycle, State.readyRead, hu, hm, hregion]⟩
    | write a v =>
      cases hregion : s.map.region a with
      | outside => exact ⟨_, .write a v, fun u hu hm => by simp only [State.performCycle, State.readyWrite, hu, hm, hregion]⟩
      | order off =>
        by_cases hword : off % 4 = 3
        · have hbit : v.getLsbD 15 = true := by simpa [State.isPassed, hphase, hregion, hword] using h
          exact ⟨_, .write a v, fun u hu hm => by
            simp only [State.performCycle, State.readyWrite, State.judgeOrderWord, hu, hm, hregion, hword, hbit, if_true]⟩
        · exact ⟨_, .argument a v (offsetSlot off) (off % 4), fun u hu hm => by
            simp only [State.performCycle, State.readyWrite, hu, hm, hregion, hword, if_false]⟩
      | cells off =>
        by_cases hoff : off = 4
        · exact ⟨_, .readIndex a v, fun u hu hm => by
            simp only [State.performCycle, State.readyWrite, hu, hm, hregion, hoff, if_true]⟩
        · exact ⟨_, .write a v, fun u hu hm => by
            simp only [State.performCycle, State.readyWrite, hu, hm, hregion, hoff, if_false]⟩
      | calls off => simp [State.isPassed, hphase, hregion] at h
      | meter off => simp [State.isPassed, hphase, hregion] at h
      | ticket off => simp [State.isPassed, hphase, hregion] at h

/-- `s` with other answers on the bus and another course of the arbiter. -/
def State.withCourse (s : State) (ends : List CycleEnd) (o : Owner) (left : Nat) (b : BurstState) (m : Bool) (g : Nat) : State :=
  { s with ends := ends, owner := o, accessLeft := left, burst := b, meterRequest := m, grantCount := g }

theorem State.ite_withCourse {p : Prop} [Decidable p] {a b a' b' : State} {e : List CycleEnd} {o : Owner} {left : Nat} {r : BurstState}
    {m : Bool} {g : Nat} (ha : a' = a.withCourse e o left r m g) (hb : b' = b.withCourse e o left r m g) :
    (if p then a' else b') = (if p then a else b).withCourse e o left r m g := by
  rw [ha, hb, apply_ite (fun t => State.withCourse t e o left r m g)]

theorem State.report_withCourse {s s' : State} {e : List CycleEnd} {o : Owner} {left : Nat} {b : BurstState} {m : Bool} {g : Nat}
    (h : s' = s.withCourse e o left b m g) (r : Report) : s'.report r = (s.report r).withCourse e o left b m g := by
  subst h
  simp only [State.report_eq]
  rfl

/-- A passed cycle adds one end on the bus, and does not see the others nor the arbiter's course. -/
theorem PassedBy.withCourse {c : Cycle} {f : State → State} (h : PassedBy c f) (s : State) :
    ∃ x, ∀ e o left b m g, f (s.withCourse e o left b m g) = (f s).withCourse (e ++ [x]) o left b m g := by
  cases h with
  | read a mperr pair =>
    cases mperr with
    | false => exact ⟨.prdyWord (s.readMem a), fun _ _ _ _ _ _ => rfl⟩
    | true => exact ⟨.pberr, fun _ _ _ _ _ _ => rfl⟩
  | write a v => exact ⟨.prdy, fun _ _ _ _ _ _ => rfl⟩
  | argument a v i n => exact ⟨.prdy, fun _ _ _ _ _ _ => State.ite_withCourse rfl rfl⟩
  | readIndex a v =>
    exact ⟨.prdy, fun _ _ _ _ _ _ => State.ite_withCourse (State.report_withCourse (by rfl) _)
      (State.ite_withCourse rfl (State.ite_withCourse rfl (State.report_withCourse (by rfl) _)))⟩

/-- A passed cycle ends, and is calm. -/
theorem PassedBy.calm {c : Cycle} {f : State → State} (h : PassedBy c f) {s : State} (hcycles : s.cycles = [c]) :
    ({ s with cycles := [] } : State).Calm (f s) := by
  have hended : ∀ (u : State) e pair, u.timing = s.timing → u.records = s.records →
      ({ s with cycles := [] } : State).Calm (u.endCycle e pair) := by
    intro u e pair hu hrecords
    simp only [State.timing, Prod.mk.injEq] at hu
    obtain ⟨hc, hrest⟩ := hu
    refine ⟨?_, fun _ => rfl, fun y i => ?_⟩
    · have htail : u.cycles.tail = [] := by rw [hc, hcycles]; rfl
      simp only [State.timing, State.endCycle, htail, hrest]
    · have hrecord : (u.endCycle e pair).record y = s.record y := congrArg (fun rs : Vector CallRecord 56 => rs[y]) hrecords
      rw [hrecord]
      exact id
  have hwritten : ∀ a v, ({ s with cycles := [] } : State).Calm (s.passWrite a v) := fun a v => hended _ _ _ rfl rfl
  cases h with
  | read a mperr pair =>
    cases mperr with
    | false => exact hended s _ _ rfl rfl
    | true => exact hended s.setMemoryError _ _ rfl rfl
  | write a v => exact hwritten a v
  | argument a v i n => exact .ite ((hwritten a v).trans .of_kept) (hwritten a v)
  | readIndex a v =>
    exact .ite ((hwritten a v).trans (.report _)) (.ite ((hwritten a v).trans .of_kept)
      (.ite ((hwritten a v).trans .of_kept) ((hwritten a v).trans (.report _))))

/-! ## A period in which nothing falls due -/

section Period

variable {s : State}

/-- The counted state of a part at rest. -/
theorem State.periodCounted_idle (hstretch : s.stretch = .none) (hleft : s.wireLeft = 0) (haccess : s.accessLeft = 0) :
    s.periodCounted =
      { s with
        records := s.periodCounted.records, outstanding := s.outstanding.map fun o => { o with left := o.left - 1 },
        scanDivider := s.scanDivider + 1, tickDivider := s.tickDivider + 1,
        bitClock := if s.bitClock + 1 < 64 then s.bitClock + 1 else 0 } := by
  have hwire : s.wireLeft - 1 = s.wireLeft := by rw [hleft]
  have haccess' : s.accessLeft - 1 = s.accessLeft := by rw [haccess]
  simp only [State.periodCounted, hstretch, hwire, haccess']

/-- With MXO idle and no command queued, nothing begins at a bit time (R174). -/
theorem State.dueWire_idle (hwire : s.onWire = none) (hleft : s.wireLeft = 0) (htx : s.txQueue = []) : s.dueWire = s := by
  have hbegun : s.beginCommand = s := by
    have hsame : ∀ w n, w = s.onWire → n = s.wireLeft → ({ s with onWire := w, wireLeft := n } : State) = s := by
      rintro _ _ rfl rfl
      rfl
    unfold State.beginCommand
    split
    next h => rw [htx] at h; cases h
    next => exact hsame none 0 hwire.symm hleft.symm
  simp only [State.dueWire, hwire, hbegun, ite_self]

theorem step_quiet (hpending : s.pending = []) (hp : s.phase ≠ .held) (hcycles : s.cycles = []) (howner : s.owner = .none)
    (hstretch : s.stretch = .none) (hwire : s.onWire = none) (hleft : s.wireLeft = 0) (haccess : s.accessLeft = 0)
    (htx : s.txQueue = []) (hresponses : s.ResponsesQuiet) (hrecords : ∀ x, s.RecordQuiet x) (hdividers : s.DividersQuiet) :
    ∃ t, step s = .next t ∧
      State.ArbiterOnly
        { s with
          records := t.records, outstanding := s.outstanding.map fun o => { o with left := o.left - 1 },
          scanDivider := s.scanDivider + 1, tickDivider := s.tickDivider + 1,
          bitClock := if s.bitClock + 1 < 64 then s.bitClock + 1 else 0 } t ∧
      ∀ x, t.record x = (s.record x).countTimers := by
  have hnot : s.periodCounted.duePort = s.periodCounted := State.duePort_still fun ho => absurd howner ho
  have hdue : s.periodCounted.duePort.dueStretch.dueWire.dueResponses.dueRecords.dueScan.dueTick = s.periodCounted := by
    rw [hnot, State.dueStretch_still (State.periodCounted_stretch hstretch),
      State.dueWire_idle (s := s.periodCounted) hwire (by simp only [State.periodCounted, hleft]) htx,
      State.dueResponses_still (State.ResponsesQuiet.counted hresponses),
      State.dueDividers_still (fun x => (hrecords x).counted) hdividers]
  have hask := State.askPort_arbiterOnly s.periodCounted hcycles
  refine ⟨_, step_period hpending hp, ?_, fun x => ?_⟩
  · rw [hdue, hask.records, ← State.periodCounted_idle hstretch hleft haccess]
    exact hask
  · rw [hdue, hask.record, State.periodCounted_record]

/-! ## The end of what owns the port -/

theorem step_ownerEnds {i : Instr} (hpending : s.pending = []) (hp : s.phase ≠ .held) (hi : s.EndsBy i)
    (hleft : s.accessLeft = 1 ∨ (s.accessLeft = 5 ∧ i = .postingRecordCorrupt)) (hstretch : s.stretch = .none)
    (hwire : s.WireQuiet) (hresponses : s.ResponsesQuiet) (hrecords : ∀ x, s.RecordQuiet x) (hdividers : s.DividersQuiet) :
    ∃ t u, step s = .next t ∧ exec i s.periodCounted = .next u ∧ State.ArbiterOnly u t := by
  have hcounted : s.periodCounted.EndsBy i := hi
  have hdue : s.periodCounted.duePort = s.periodCounted.finishOwner := by
    rcases hleft with hleft | ⟨hleft, rfl⟩
    · exact State.duePort_end (show s.accessLeft - 1 = 0 by rw [hleft])
    · rcases hcounted with ⟨-, hcorrupt, -⟩ | ⟨-, ⟨-, hcorrupt⟩ | ⟨-, hcorrupt⟩ | ⟨-, hcorrupt⟩ | ⟨p, howner, hcorrupt⟩⟩
      iterate 4 cases hcorrupt
      refine State.duePort_corrupt howner (show s.accessLeft - 1 ≤ 4 by rw [hleft]) fun hvalid => ?_
      rw [if_pos hvalid] at hcorrupt
      cases hcorrupt
  obtain ⟨hexec, hcalm⟩ := State.EndsBy.finishes (s := s.periodCounted) hp hcounted
  refine ⟨_, _, step_period hpending hp, hexec, ?_⟩
  rw [hdue, hcalm.due_still (State.periodCounted_stretch hstretch) hwire.counted hresponses.counted
    (fun x => (hrecords x).counted) hdividers]
  exact .refl _

/-- The end of a passed cycle in a period, on the state so counted. -/
theorem step_passedEnds {c : Cycle} {f : State → State} (hpending : s.pending = []) (hp : s.phase ≠ .held) (howner : s.owner = .passed)
    (hcycles : s.cycles = [c]) (hf : PassedBy c f) (hperform : s.periodCounted.performCycle c = f s.periodCounted)
    (hleft : s.accessLeft = 1) (hstretch : s.stretch = .none)
    (hwire : s.WireQuiet) (hresponses : s.ResponsesQuiet) (hrecords : ∀ x, s.RecordQuiet x) (hdividers : s.DividersQuiet) :
    ∃ t, step s = .next t ∧ State.ArbiterOnly (f s.periodCounted) t := by
  have hcalm : ({ s.periodCounted with cycles := [] } : State).Calm (f s.periodCounted).freePort :=
    (hf.calm (s := s.periodCounted) hcycles).trans .of_kept
  have hdue : s.periodCounted.duePort = (f s.periodCounted).freePort := by
    rw [State.duePort_end (show s.accessLeft - 1 = 0 by rw [hleft]), State.finishOwner_passed s.periodCounted c [] howner hcycles,
      hperform]
  refine ⟨_, step_period hpending hp, ?_⟩
  rw [hdue, hcalm.due_still (State.periodCounted_stretch hstretch) hwire.counted hresponses.counted
    (fun x => (hrecords x).counted) hdividers]
  exact (State.askPort_arbiterOnly _ (congrArg Prod.fst hcalm.timing)).rebase

theorem step_readEnds {a : Word} (hpending : s.pending = []) (hready : s.phase = .ready) (howner : s.owner = .passed)
    (hcycles : s.cycles = [.read a false]) (ha : s.map.region a = .outside) (hleft : s.accessLeft = 1) (hstretch : s.stretch = .none)
    (hwire : s.WireQuiet) (hresponses : s.ResponsesQuiet) (hrecords : ∀ x, s.RecordQuiet x) (hdividers : s.DividersQuiet) :
    ∃ t, step s = .next t ∧
      State.ArbiterOnly
        { s.periodCounted with ends := s.ends ++ [.prdyWord (s.readMem a)], cycles := [], readPair := none } t := by
  have hp : s.phase ≠ .held := by rw [hready]; exact Phase.noConfusion
  have hperform : s.periodCounted.performCycle (.read a false) = s.periodCounted.passRead a false none :=
    State.performCycle_readOutside (s := s.periodCounted) hready ha
  obtain ⟨t, ht, harb⟩ := step_passedEnds hpending hp howner hcycles (.read a false none) hperform hleft hstretch hwire hresponses
    hrecords hdividers
  have hended : s.periodCounted.passRead a false none =
      { s.periodCounted with ends := s.ends ++ [.prdyWord (s.readMem a)], cycles := [], readPair := none } := by
    have htail : s.periodCounted.cycles.tail = [] := by
      show s.cycles.tail = []
      rw [hcycles]
      rfl
    rw [State.passRead, if_neg Bool.false_ne_true, State.endCycle, htail, ← State.periodCounted_stretch hstretch]
    rfl
  exact ⟨t, ht, hended ▸ harb⟩

theorem step_accessEnds {c : Cycle} (hpending : s.pending = []) (hp : s.phase ≠ .held) (howner : s.owner = .passed)
    (hcycles : s.cycles = [c]) (hpassed : s.isPassed c = true) (hleft : s.accessLeft = 1) (hstretch : s.stretch = .none)
    (hwire : s.WireQuiet) (hresponses : s.ResponsesQuiet) (hrecords : ∀ x, s.RecordQuiet x) (hdividers : s.DividersQuiet) :
    ∃ t u, step s = .next t ∧
      exec (passedCommand c) { s.periodCounted with owner := .none, cycles := [], grantCount := 0 } = .next u ∧
      State.ArbiterOnly { u with ends := s.ends ++ u.ends } t := by
  obtain ⟨f, hf, hperform⟩ := s.passedBy hpassed
  obtain ⟨t, ht, harb⟩ := step_passedEnds hpending hp howner hcycles hf (hperform s.periodCounted rfl rfl) hleft hstretch hwire
    hresponses hrecords hdividers
  obtain ⟨x, hcourse⟩ := hf.withCourse s.periodCounted
  have hdone : (f s.periodCounted).cycles = [] := congrArg Prod.fst (hf.calm (s := s.periodCounted) hcycles).timing
  have hcommand : ∀ w : State, exec (passedCommand c) w = .next (w.presentCycle c false) := by
    cases c <;> exact fun _ => rfl
  let w : State := { s.periodCounted with owner := .none, cycles := [], grantCount := 0 }
  have hfree : w.PortFree := ⟨rfl, rfl, State.periodCounted_stretch hstretch, Nat.succ_pos 7⟩
  have hpresented : State.ArbiterOnly ((f s.periodCounted).withCourse [x] .none w.accessLeft .idle false 0) (w.presentCycle c false) := by
    refine State.presentCycle_arbiterOnly hfree hp (.inl rfl) (fun b m g => ?_) hdone
    have hgranted : w.granted c b m g = s.periodCounted.withCourse [] .none w.accessLeft b m g := by
      have hsame : s.periodCounted.cycles = [c] := hcycles
      simp only [State.granted, State.withCourse, ← hsame, w]
    rw [hgranted, hperform (s.periodCounted.withCourse [] .none w.accessLeft b m g) rfl rfl, hcourse]
    rfl
  have hself := hcourse s.periodCounted.ends s.periodCounted.owner s.periodCounted.accessLeft s.periodCounted.burst
    s.periodCounted.meterRequest s.periodCounted.grantCount
  have hends : (f s.periodCounted).ends = s.ends ++ [x] := congrArg State.ends hself
  refine ⟨t, _, ht, hcommand w, harb.rebase ?_⟩
  rw [hpresented]
  show State.ArbiterOnly _ _
  unfold State.ArbiterOnly
  simp only [State.withCourse, ← hends]

end Period

end Sys2Proof.Machine
end

section
/-!
PROOF. One CLK period, continued (O3): the stretch timer, MXO, the response timers, the records' timers, the scan and the tick.
-/

namespace Sys2Proof.Machine

set_option Elab.async false

variable {s : State}

/-! ## The stretch timer and MXO -/

theorem step_stretchEnds (hpending : s.pending = []) (hp : s.phase ≠ .held) (hstretch : s.stretch = .held 1)
    (howner : s.owner ≠ .none → 5 < s.accessLeft) (hwire : s.WireQuiet) (hresponses : s.ResponsesQuiet)
    (hrecords : ∀ x, s.RecordQuiet x) (hdividers : s.DividersQuiet) :
    ∃ t u, step s = .next t ∧ exec .stretchTimerExpiry s.periodCounted = .next u ∧ State.ArbiterOnly u t := by
  have hnot : s.periodCounted.duePort = s.periodCounted := State.duePort_still fun ho => Nat.lt_sub_of_add_lt (howner ho)
  have hheld : s.periodCounted.stretch = .held 0 := by simp only [State.periodCounted, hstretch]
  have hexec : exec .stretchTimerExpiry s.periodCounted = .next s.periodCounted.refuseWrite.askPort := by
    refine (running_next (s := s.periodCounted) State.stretchExpired hp).trans ?_
    simp only [State.stretchExpired, hheld]
  have hrecords' : ∀ x, s.periodCounted.refuseWrite.RecordStill x := fun x => (hrecords x).counted
  refine ⟨_, _, step_period hpending hp, hexec, ?_⟩
  rw [hnot, State.dueStretch, if_pos hheld, State.dueWire_still (s := s.periodCounted.refuseWrite) hwire.counted,
    State.dueResponses_still (s := s.periodCounted.refuseWrite) hresponses.counted, State.dueDividers_still hrecords' hdividers]
  exact .refl _

theorem step_frameEnds {c : PortCommand} (hpending : s.pending = []) (hp : s.phase ≠ .held) (hcycles : s.cycles = [])
    (hport : s.PortQuiet) (hwire : s.onWire = some c) (hleft : s.wireLeft = 1) (hresponses : s.ResponsesQuiet)
    (hrecords : ∀ x, s.RecordQuiet x) (hdividers : s.DividersQuiet) :
    ∃ t u, step s = .next t ∧ exec .commandSent s.periodCounted = .next u ∧ State.ArbiterOnly u t := by
  obtain ⟨hduePort, hdueStretch⟩ := hport.counted
  have hcounted : s.periodCounted.onWire = some c := hwire
  have hdue : s.periodCounted.dueWire = s.periodCounted.commandSent := by
    have hzero : s.periodCounted.wireLeft = 0 := show s.wireLeft - 1 = 0 by rw [hleft]
    simp only [State.dueWire, hcounted, hzero, if_true]
  have hsent : s.periodCounted.commandSent =
      ({ s.periodCounted with outstanding := s.periodCounted.outstanding ++ sentEntry c } : State).beginCommand := by
    simp only [State.commandSent, hcounted, Option.isNone_some, Bool.false_eq_true, if_false]
  have hentry : ∀ o ∈ sentEntry c, o.left ≠ 0 := by
    cases c <;> simp [sentEntry, Config.responsePeriods]
  have hbegun : ∀ u : State, u.beginCommand = { u with
      txQueue := u.beginCommand.txQueue, onWire := u.beginCommand.onWire, wireLeft := u.beginCommand.wireLeft } := fun u => by
    unfold State.beginCommand
    split <;> rfl
  have hresponses' : s.periodCounted.commandSent.ResponsesStill := by
    rw [hsent, hbegun]
    intro o ho
    rcases List.mem_append.mp ho with hold | hnew
    · exact hresponses.counted o hold
    · exact hentry o hnew
  have hrecords' : ∀ x, s.periodCounted.commandSent.RecordStill x := by
    rw [hsent, hbegun]
    exact fun x => (hrecords x).counted
  have hdividers' : s.periodCounted.commandSent.DividersStill := by
    rw [hsent, hbegun]
    exact hdividers
  have hcycles' : s.periodCounted.commandSent.cycles = [] := by
    rw [hsent, hbegun]
    exact hcycles
  refine ⟨_, _, step_period hpending hp, running_next (s := s.periodCounted) State.commandSent hp, ?_⟩
  rw [hduePort, hdueStretch, hdue, State.dueResponses_still hresponses', State.dueDividers_still hrecords' hdividers']
  exact State.askPort_arbiterOnly _ hcycles'

theorem step_frameBegins {c : PortCommand} {rest : List PortCommand} (hpending : s.pending = []) (hp : s.phase ≠ .held)
    (hcycles : s.cycles = []) (hport : s.PortQuiet) (hwire : s.onWire = none) (hclock : s.bitClock + 1 = 64)
    (htx : s.txQueue = c :: rest) (hresponses : s.ResponsesQuiet) (hrecords : ∀ x, s.RecordQuiet x)
    (hdividers : s.DividersQuiet) :
    ∃ t, step s = .next t ∧
      State.ArbiterOnly { s.periodCounted with onWire := some c, txQueue := rest, wireLeft := 1216 } t := by
  obtain ⟨hduePort, hdueStretch⟩ := hport.counted
  have hidle : s.periodCounted.onWire = none := hwire
  have hqueue : s.periodCounted.txQueue = c :: rest := htx
  have hzero : s.periodCounted.bitClock = 0 := if_neg (by omega)
  have hdue : s.periodCounted.dueWire = { s.periodCounted with onWire := some c, txQueue := rest, wireLeft := 1216 } := by
    have hbegun : s.periodCounted.dueWire = s.periodCounted.beginCommand := by
      unfold State.dueWire
      split
      next d h => rw [hidle] at h; cases h
      next => exact if_pos hzero
    rw [hbegun]
    unfold State.beginCommand
    split
    next d later h =>
      obtain ⟨rfl, rfl⟩ := List.cons.inj (hqueue.symm.trans h)
      rfl
    next h => rw [hqueue] at h; cases h
  let u : State := { s.periodCounted with onWire := some c, txQueue := rest, wireLeft := 1216 }
  refine ⟨_, step_period hpending hp, ?_⟩
  rw [hduePort, hdueStretch, hdue, State.dueResponses_still (s := u) hresponses.counted,
    State.dueDividers_still (s := u) (fun x => (hrecords x).counted) hdividers]
  exact State.askPort_arbiterOnly u hcycles

/-! ## The response timers (R55) -/

theorem step_responseEnds {before after : List Outstanding} {o : Outstanding} (hpending : s.pending = []) (hp : s.phase ≠ .held)
    (hcycles : s.cycles = []) (hport : s.PortQuiet) (ho : s.outstanding = before ++ o :: after) (hleft : o.left = 1)
    (hbefore : ∀ q ∈ before, 1 < q.left) (hafter : ∀ q ∈ after, 1 < q.left) (hwire : s.WireQuiet)
    (hrecords : ∀ x, s.RecordQuiet x) (hdividers : s.DividersQuiet) :
    ∃ t u, step s = .next t ∧
      exec (if o.kind = .makeJob then .makeTimeout o.xp else .breakTimeout o.xp) s.periodCounted = .next u ∧
      State.ArbiterOnly u t := by
  obtain ⟨hduePort, hdueStretch⟩ := hport.counted
  have hcounted : s.periodCounted.cycles = [] := hcycles
  have hothers : ∀ l : List Outstanding, (∀ q ∈ l, 1 < q.left) →
      (l.map fun q => { q with left := q.left - 1 }).filter (fun q => decide (q.left = 0)) = [] := fun l hl => by
    refine List.filter_eq_nil_iff.mpr fun q hq => ?_
    obtain ⟨r, hr, rfl⟩ := List.mem_map.mp hq
    simpa using Nat.sub_ne_zero_of_lt (hl r hr)
  have hfilter : s.periodCounted.outstanding.filter (fun q => decide (q.left = 0)) = [{ o with left := o.left - 1 }] := by
    show (s.outstanding.map fun q => { q with left := q.left - 1 }).filter (fun q => decide (q.left = 0)) = _
    rw [ho, List.map_append, List.map_cons, List.filter_append, hothers before hbefore, List.filter_cons, hothers after hafter, hleft]
    rfl
  have hdue : s.periodCounted.dueResponses = s.periodCounted.timeOut { o with left := o.left - 1 } := by
    rw [State.dueResponses, hfilter]
    rfl
  obtain ⟨k, f, hf, htimeOut, hexec⟩ : ∃ (k : JobKind) (f : State → Circuit → State), (∀ (u : State) (y : Circuit), u.Calm (f u y)) ∧
      s.periodCounted.timeOut { o with left := o.left - 1 } = s.periodCounted.matched k o.xp f ∧
      exec (if o.kind = .makeJob then .makeTimeout o.xp else .breakTimeout o.xp) s.periodCounted =
        .next (s.periodCounted.matched k o.xp f) := by
    cases o.kind with
    | makeJob =>
      refine ⟨.makeJob, fun u y => u.makeTimedOut y o.xp, fun _ _ => .makeTimedOut _, by simp only [State.timeOut], ?_⟩
      rw [if_pos rfl]
      exact running_next (s := s.periodCounted) (fun s => s.matched .makeJob o.xp fun s x => s.makeTimedOut x o.xp) hp
    | breakJob =>
      refine ⟨.breakJob, fun u y => u.breakFaulted y o.xp, fun _ _ => .breakFaulted _, by simp only [State.timeOut], ?_⟩
      rw [if_neg JobKind.noConfusion]
      exact running_next (s := s.periodCounted) (fun s => s.matched .breakJob o.xp fun s x => s.breakFaulted x o.xp) hp
  obtain ⟨rest, hcalm⟩ := State.matched_calm hf k o.xp hcounted
  refine ⟨_, _, step_period hpending hp, hexec, ?_⟩
  rw [hduePort, hdueStretch, State.dueWire_still hwire.counted, hdue, htimeOut,
    State.dueDividers_still (fun x => hcalm.recordStill (hrecords x).counted) (hcalm.dividersStill hdividers)]
  exact State.askPort_arbiterOnly _ ((congrArg Prod.fst hcalm.timing).trans hcounted)

/-! ## The records' timers (R42, R46, R50) -/

theorem ranOut_true {t : Option Nat} (h : t = some 0) : ranOut t = true := decide_eq_true h

/-- A record with its settle timer alone run out. -/
theorem State.dueRecord_settle {x : Circuit} (h : (s.record x).settle = some 0) (hcalled : (s.record x).timer 1 ≠ some 0)
    (hguard : (s.record x).timer 2 ≠ some 0) : s.dueRecord x = s.settleExpired x := by
  have hafter : s.Calm (s.settleExpired x) := .settleExpired
  have hcalled' : ranOut ((s.settleExpired x).record x).calledClear = false := ranOut_false fun e => hcalled (hafter.timers x 1 e)
  have hguard' : ranOut ((s.settleExpired x).record x).guardTimer = false := ranOut_false fun e => hguard (hafter.timers x 2 e)
  simp only [State.dueRecord, ranOut_true h, if_true, hcalled', hguard', Bool.false_eq_true, if_false]

/-- A record with its called-clear timer alone run out. -/
theorem State.dueRecord_calledClear {x : Circuit} (h : (s.record x).calledClear = some 0) (hsettle : (s.record x).settle ≠ some 0)
    (hguard : (s.record x).timer 2 ≠ some 0) : s.dueRecord x = s.calledClearExpired x := by
  have hafter : s.Calm (s.calledClearExpired x) := .calledClearExpired
  have hguard' : ranOut ((s.calledClearExpired x).record x).guardTimer = false := ranOut_false fun e => hguard (hafter.timers x 2 e)
  simp only [State.dueRecord, ranOut_false hsettle, ranOut_true h, if_true, hguard', Bool.false_eq_true, if_false]

/-- A record with its guard timer alone run out. -/
theorem State.dueRecord_guard {x : Circuit} (h : (s.record x).guardTimer = some 0) (hsettle : (s.record x).settle ≠ some 0)
    (hcalled : (s.record x).calledClear ≠ some 0) : s.dueRecord x = s.guardExpired x := by
  simp only [State.dueRecord, ranOut_false hsettle, ranOut_false hcalled, ranOut_true h, if_true, Bool.false_eq_true, if_false]

/-- The expiry that alone is due at record `x` is calm, and its command takes it on the counted state. -/
theorem dueRecord_command {x : Circuit} {i : Instr} {r : CallRecord} (hr : r = s.record x) (hp : s.phase ≠ .held)
    (hcycles : s.cycles = [])
    (h : (i = .settleExpiry x ∧ r.settle = some 1 ∧ (∀ n, r.guardTimer = some n → 1 < n) ∧ ∀ n, r.calledClear = some n → 1 < n) ∨
      (i = .guardExpiry x ∧ r.guardTimer = some 1 ∧ (∀ n, r.settle = some n → 1 < n) ∧ ∀ n, r.calledClear = some n → 1 < n) ∨
      (i = .calledClearExpiry x ∧ r.calledClear = some 1 ∧ (∀ n, r.settle = some n → 1 < n)
        ∧ ∀ n, r.guardTimer = some n → 1 < n)) :
    s.periodCounted.Calm (s.periodCounted.dueRecord x) ∧
      ∃ u, exec i s.periodCounted = .next u ∧ State.ArbiterOnly u (s.periodCounted.dueRecord x).askPort := by
  subst hr
  have hout : ∀ j : Fin 3, (s.record x).timer j = some 1 → (s.periodCounted.record x).timer j = some 0 := fun j hj => by
    rw [State.periodCounted_timer, hj]
    rfl
  rcases h with ⟨rfl, hdue, hguard, hcalled⟩ | ⟨rfl, hdue, hsettle, hcalled⟩ | ⟨rfl, hdue, hsettle, hguard⟩
  · rw [State.dueRecord_settle (hout 0 hdue) (State.periodCounted_still (i := 1) hcalled) (State.periodCounted_still (i := 2) hguard)]
    exact ⟨.settleExpired, _, running_next (s := s.periodCounted) (fun s => (s.settleExpired x).askPort) hp, .refl _⟩
  · rw [State.dueRecord_guard (hout 2 hdue) (State.periodCounted_still (i := 0) hsettle) (State.periodCounted_still (i := 1) hcalled)]
    have hcalm : s.periodCounted.Calm (s.periodCounted.guardExpired x) := .guardExpired
    exact ⟨hcalm, _, running_next (s := s.periodCounted) (fun s => s.guardExpired x) hp,
      State.askPort_arbiterOnly _ ((congrArg Prod.fst hcalm.timing).trans hcycles)⟩
  · rw [State.dueRecord_calledClear (hout 1 hdue) (State.periodCounted_still (i := 0) hsettle) (State.periodCounted_still (i := 2) hguard)]
    exact ⟨.calledClearExpired, _, running_next (s := s.periodCounted) (fun s => (s.calledClearExpired x).askPort) hp, .refl _⟩

theorem step_recordExpires {x : Circuit} {i : Instr} (hpending : s.pending = []) (hp : s.phase ≠ .held) (hport : s.PortQuiet)
    (hcommand : s.periodCounted.Calm (s.periodCounted.dueRecord x) ∧
      ∃ u, exec i s.periodCounted = .next u ∧ State.ArbiterOnly u (s.periodCounted.dueRecord x).askPort)
    (hothers : ∀ y, y ≠ x → s.RecordQuiet y) (hwire : s.WireQuiet) (hresponses : s.ResponsesQuiet) (hdividers : s.DividersQuiet) :
    ∃ t u, step s = .next t ∧ exec i s.periodCounted = .next u ∧ State.ArbiterOnly u t := by
  obtain ⟨hduePort, hdueStretch⟩ := hport.counted
  obtain ⟨hcalm, u, hexec, harb⟩ := hcommand
  have hstill : (s.periodCounted.dueRecord x).DividersStill := hcalm.dividersStill hdividers
  have hdue : s.periodCounted.dueRecords = s.periodCounted.dueRecord x :=
    State.dueRecords_single (fun y hy => (hothers y hy).counted) fun y hy => hcalm.recordStill (hothers y hy).counted
  refine ⟨_, u, step_period hpending hp, hexec, ?_⟩
  rw [hduePort, hdueStretch, State.dueWire_still hwire.counted, State.dueResponses_still hresponses.counted, hdue,
    State.dueScan_still hstill.1, State.dueTick_still hstill.2]
  exact harb

/-! ## The scan and the tick (R38, R72) -/

theorem State.scan_tickDivider (s : State) (raw : BitVec 112) : (s.scan raw).tickDivider = s.tickDivider := by
  have hrest := (State.scannedTo_fold raw (List.finRange 112) { s with scanPins := raw, scanDivider := 0 } (List.nodup_finRange 112)).rest
  show (State.scan s raw).tickDivider = _
  rw [State.scan, hrest]
  rfl

theorem step_scans (hpending : s.pending = []) (hp : s.phase ≠ .held) (hport : s.PortQuiet) (hwire : s.WireQuiet)
    (hresponses : s.ResponsesQuiet) (hrecords : ∀ x, s.RecordQuiet x) (hscan : s.scanDivider + 1 = 40960)
    (htick : s.tickDivider + 1 < 409600) :
    ∃ t u, step s = .next t ∧ exec (.scan s.scanPins) s.periodCounted = .next u ∧ State.ArbiterOnly u t := by
  obtain ⟨hduePort, hdueStretch⟩ := hport.counted
  have hdue : s.periodCounted.dueScan = s.periodCounted.scan s.scanPins := if_pos (show 40960 ≤ s.scanDivider + 1 by rw [hscan])
  refine ⟨_, _, step_period hpending hp, running_next (s := s.periodCounted) (fun u => (u.scan s.scanPins).askPort) hp, ?_⟩
  rw [hduePort, hdueStretch, State.dueWire_still hwire.counted, State.dueResponses_still hresponses.counted,
    State.dueRecords_still fun x => (hrecords x).counted, hdue,
    State.dueTick_still (by rw [State.scan_tickDivider]; exact htick)]
  exact .refl _

theorem step_ticks (hpending : s.pending = []) (hp : s.phase ≠ .held) (hport : s.PortQuiet) (hwire : s.WireQuiet)
    (hresponses : s.ResponsesQuiet) (hrecords : ∀ x, s.RecordQuiet x) (hscan : s.scanDivider + 1 < 40960)
    (htick : s.tickDivider + 1 = 409600) :
    ∃ t u, step s = .next t ∧ exec .meteringTick s.periodCounted = .next u ∧ State.ArbiterOnly u t := by
  obtain ⟨hduePort, hdueStretch⟩ := hport.counted
  have hdue : s.periodCounted.dueTick = s.periodCounted.meteringTick := if_pos (show 409600 ≤ s.tickDivider + 1 by rw [htick])
  refine ⟨_, _, step_period hpending hp, running_next (s := s.periodCounted) (fun u => u.meteringTick.askPort) hp, ?_⟩
  rw [hduePort, hdueStretch, State.dueWire_still hwire.counted, State.dueResponses_still hresponses.counted,
    State.dueRecords_still fun x => (hrecords x).counted, State.dueScan_still (s := s.periodCounted) hscan, hdue]
  exact .refl _

/-- While MRST is active nothing counts (R49, R72). -/
theorem step_held (hpending : s.pending = []) (hp : s.phase = .held) : step s = .next s := by
  have hclock : step s = .next s.clockPeriod := by simp only [step, hpending]
  have hheld : s.isHeld = true := by simp [State.isHeld, hp]
  rw [hclock, State.clockPeriod, if_pos hheld]

/-- A timer that is neither out nor at its last period runs on. -/
theorem timer_runs {t : Option Nat} (hzero : t ≠ some 0) (hone : t ≠ some 1) (n : Nat) (h : t = some n) : 1 < n := by
  match n with
  | 0 => exact absurd h hzero
  | 1 => exact absurd h hone
  | n + 2 => omega

/-- Settles O3: the period is counted, and of what falls due in it the one event is taken and nothing else. -/
theorem quietPeriodCountsTimers : Obligations.QuietPeriodCountsTimers := by
  intro s hpending
  refine ⟨step_held hpending, ?_, fun i hp hi => step_ownerEnds hpending hp hi, fun a => step_readEnds hpending,
    fun c => step_accessEnds hpending, fun c hp hstretch _ => step_stretchEnds hpending hp hstretch, ?_⟩
  · intro hp hcycles howner hstretch hwire hleft haccess htx hresponses htimers hscan htick
    refine step_quiet hpending hp hcycles howner hstretch hwire hleft haccess htx hresponses (fun x => ?_) ⟨hscan, htick⟩
    obtain ⟨hs0, hs1, hg0, hg1, hc0, hc1⟩ := htimers x
    exact ⟨timer_runs hs0 hs1, timer_runs hg0 hg1, timer_runs hc0 hc1⟩
  · intro hp hcycles hport
    exact ⟨fun c => step_frameEnds hpending hp hcycles hport, fun c rest => step_frameBegins hpending hp hcycles hport,
      fun before o after => step_responseEnds hpending hp hcycles hport,
      fun x i r hr h => step_recordExpires hpending hp hport (dueRecord_command hr hp hcycles h),
      fun hwire hresponses hrecords => ⟨step_scans hpending hp hport hwire hresponses hrecords,
        step_ticks hpending hp hport hwire hresponses hrecords⟩⟩

end Sys2Proof.Machine
end
